-- ==== Sys2Proof/Word.lean ====
section
/-! DEFINITION. The word types of the machine (spec/00_scope.md R5). -/

namespace Sys2Proof

/-- A register or memory word: 16 bits (R5 `WORD`). -/
abbrev Word := BitVec 16

/-- Half a word, the unit of the byte-select write (20_memory.md R41). -/
abbrev Byte := BitVec 8

/-- A priority level, 0 to 15 (R5 `NLEVELS`). -/
abbrev Level := BitVec 4

/-- A physical word address, 24 bits (R5 `PA_BITS`). -/
abbrev PhysAddr := BitVec 24

/-- A page-table entry, 32 bits (R5 `PTE_BITS`). -/
abbrev Pte := BitVec 32

end Sys2Proof
end

