-- ==== Sys2Proof/Syntax.lean ====
section
/-! DEFINITION. The instructions as data: one constructor of `Instr` for each row of
spec/opcode_table.json. Operand fields are those of 30_encoding.md R83 to R85; bits the decoder ignores
(R92) are no operands (log 14). -/

namespace Sys2Proof

/-- The registers a 3-bit field can name (R84): codes 1 to 7 in this order. `l` is the link register. -/
inductive Reg where
  | d | p | b | l | a | t | x
deriving DecidableEq, Repr

/-- A 3-bit register field. `none` is code 0, whose meaning depends on the format (R84). -/
abbrev RegField := Option Reg

/-- The eight address modes of 40_memory_reference.md R100, in the order of the mode values 0 to 7. -/
inductive Mode where
  | pRel | bRel | indP | indB | xIdx | bxIdx | indPX | indBX
deriving DecidableEq, Repr

/-- The four shift types of 43_shift.md R190: plain, ROT, ZIN, LIN. -/
inductive ShiftType where
  | plain | rot | zin | lin
deriving DecidableEq, Repr

/-- The instruction set, one constructor per row of the opcode table (R86 to R88). -/
inductive Instr where
  -- memory reference, format MR
  | stz (mode : Mode) (disp : BitVec 8)
  | sta (mode : Mode) (disp : BitVec 8)
  | stt (mode : Mode) (disp : BitVec 8)
  | stx (mode : Mode) (disp : BitVec 8)
  | std (mode : Mode) (disp : BitVec 8)
  | ldd (mode : Mode) (disp : BitVec 8)
  | stf (mode : Mode) (disp : BitVec 8)
  | ldf (mode : Mode) (disp : BitVec 8)
  | min (mode : Mode) (disp : BitVec 8)
  | lda (mode : Mode) (disp : BitVec 8)
  | ldt (mode : Mode) (disp : BitVec 8)
  | ldx (mode : Mode) (disp : BitVec 8)
  | add (mode : Mode) (disp : BitVec 8)
  | sub (mode : Mode) (disp : BitVec 8)
  | and (mode : Mode) (disp : BitVec 8)
  | ora (mode : Mode) (disp : BitVec 8)
  | fad (mode : Mode) (disp : BitVec 8)
  | fsb (mode : Mode) (disp : BitVec 8)
  | fmu (mode : Mode) (disp : BitVec 8)
  | fdv (mode : Mode) (disp : BitVec 8)
  | mpy (mode : Mode) (disp : BitVec 8)
  | jmp (mode : Mode) (disp : BitVec 8)
  -- conditional jumps, format CJ
  | jap (disp : BitVec 8)
  | jan (disp : BitVec 8)
  | jaz (disp : BitVec 8)
  | jaf (disp : BitVec 8)
  | jpc (disp : BitVec 8)
  | jnc (disp : BitVec 8)
  | jxz (disp : BitVec 8)
  | jxn (disp : BitVec 8)
  | jpl (mode : Mode) (disp : BitVec 8)
  -- skips, format SK
  | skpEql (sr dr : RegField)
  | skpGeq (sr dr : RegField)
  | skpGre (sr dr : RegField)
  | skpMgre (sr dr : RegField)
  | skpUeq (sr dr : RegField)
  | skpLss (sr dr : RegField)
  | skpLst (sr dr : RegField)
  | skpMlst (sr dr : RegField)
  -- recognised and not specified (class U, R93)
  | addd
  | subd
  | comd
  | pack
  | upack
  | shde
  | bfill
  | movb
  | movbf
  | init
  | entr
  | leave
  | eleav
  | setpt
  | clept
  | clnreent
  | chreentpages
  | clepu
  | movew
  | lwcs
  -- extended instructions of R87
  | tset
  | rdus
  | exr (sr : RegField)
  | rmpy (sr dr : RegField)
  | rdiv (sr : RegField)
  | lbyt
  | sbyt
  | mix3
  | ldatx (delta : BitVec 3)
  | ldxtx (delta : BitVec 3)
  | lddtx (delta : BitVec 3)
  | ldbtx (delta : BitVec 3)
  | statx (delta : BitVec 3)
  | stztx (delta : BitVec 3)
  | stdtx (delta : BitVec 3)
  | identPL10
  | identPL11
  | identPL12
  | identPL13
  -- register operations, format RO
  | swap (cm1 cld : Bool) (sr dr : RegField)
  | rand (cm1 cld : Bool) (sr dr : RegField)
  | rexo (cm1 cld : Bool) (sr dr : RegField)
  | rora (cm1 cld : Bool) (sr dr : RegField)
  | radd (adc ad1 cm1 cld : Bool) (sr dr : RegField)
  -- system instructions of R88
  | tra (n : BitVec 4)
  | trr (n : BitVec 4)
  | mcl (n : BitVec 4)
  | mst (n : BitVec 4)
  | opcom
  | iof
  | ion
  | pof
  | piof
  | sex
  | rex
  | pon
  | pion
  | ioxt
  | exam
  | depo
  | wait
  | nlz (scale : Int)
  | dnz (scale : Int)
  | srb (level : Level)
  | lrb (level : Level)
  | mon (n : BitVec 8)
  | irw (level : Level) (reg : RegField)
  | irr (level : Level) (reg : RegField)
  -- shifts, format SH
  | sht (type : ShiftType) (count : Int)
  | shd (type : ShiftType) (count : Int)
  | sha (type : ShiftType) (count : Int)
  | sad (type : ShiftType) (count : Int)
  | iox (dev : BitVec 11)
  -- argument instructions, format AR
  | sab (arg : BitVec 8)
  | saa (arg : BitVec 8)
  | sat (arg : BitVec 8)
  | sax (arg : BitVec 8)
  | aab (arg : BitVec 8)
  | aaa (arg : BitVec 8)
  | aat (arg : BitVec 8)
  | aax (arg : BitVec 8)
  -- bit instructions, format BO
  | bsetZro (bn : Nat) (dr : RegField)
  | bsetOne (bn : Nat) (dr : RegField)
  | bsetBcm (bn : Nat) (dr : RegField)
  | bsetBac (bn : Nat) (dr : RegField)
  | bskpZro (bn : Nat) (dr : RegField)
  | bskpOne (bn : Nat) (dr : RegField)
  | bskpBcm (bn : Nat) (dr : RegField)
  | bskpBac (bn : Nat) (dr : RegField)
  | bstc (bn : Nat) (dr : RegField)
  | bsta (bn : Nat) (dr : RegField)
  | bldc (bn : Nat) (dr : RegField)
  | blda (bn : Nat) (dr : RegField)
  | banc (bn : Nat) (dr : RegField)
  | band (bn : Nat) (dr : RegField)
  | borc (bn : Nat) (dr : RegField)
  | bora (bn : Nat) (dr : RegField)
deriving DecidableEq, Repr

end Sys2Proof
end

