-- ==== Sys2Proof/Decode.lean ====
section
/-! DEFINITION. The decoder of 30_encoding.md R82 (one row of R86 to R88, or illegal), total on any
bytes, and after it the encoder, written from the same tables. -/

namespace Sys2Proof

/-- Why a word is no instruction (R90). The last reason is not a word of R90: fewer than two bytes. -/
inductive IllegalWord where
  /-- A word of 0160000 to 0163777. -/
  | unassigned
  /-- A word of 0140000 to 0143777, bits 7:6 not 00, that matches no row of R87. -/
  | extendedSlot
  /-- A word of 0150000 to 0153777 that matches no row of R88. -/
  | systemSlot
  /-- Not a whole word. -/
  | truncated
deriving DecidableEq, Repr

/-! ### Fields -/

/-- The bits `lo` to `lo + n - 1` of a word (R6). -/
def field (w : Word) (lo n : Nat) : BitVec n := w.extractLsb' lo n

/-- One bit of a word as a flag. -/
def fieldBit (w : Word) (i : Nat) : Bool := w.getLsbD i

/-- The register a 3-bit code names (R84). -/
def regOfCode (c : BitVec 3) : RegField :=
  if c = 0 then none
  else if c = 1 then some .d
  else if c = 2 then some .p
  else if c = 3 then some .b
  else if c = 4 then some .l
  else if c = 5 then some .a
  else if c = 6 then some .t
  else some .x

/-- The 3-bit code of a register field (R84). -/
def codeOfReg : RegField → BitVec 3
  | none => 0
  | some .d => 1
  | some .p => 2
  | some .b => 3
  | some .l => 4
  | some .a => 5
  | some .t => 6
  | some .x => 7

/-- The address mode of a mode value `X:I:B` (40_memory_reference.md R100). -/
def modeOfBits (m : BitVec 3) : Mode :=
  if m = 0 then .pRel
  else if m = 1 then .bRel
  else if m = 2 then .indP
  else if m = 3 then .indB
  else if m = 4 then .xIdx
  else if m = 5 then .bxIdx
  else if m = 6 then .indPX
  else .indBX

/-- The mode value `X:I:B` of an address mode (R100). -/
def bitsOfMode : Mode → BitVec 3
  | .pRel => 0
  | .bRel => 1
  | .indP => 2
  | .indB => 3
  | .xIdx => 4
  | .bxIdx => 5
  | .indPX => 6
  | .indBX => 7

/-- The shift type of the 2-bit type field (43_shift.md R190). -/
def shiftTypeOfBits (t : BitVec 2) : ShiftType :=
  if t = 0 then .plain else if t = 1 then .rot else if t = 2 then .zin else .lin

/-- The 2-bit type field of a shift type (R190). -/
def bitsOfShiftType : ShiftType → BitVec 2
  | .plain => 0
  | .rot => 1
  | .zin => 2
  | .lin => 3

/-- The address mode of a word of format MR: bits 10:8. -/
def modeField (w : Word) : Mode := modeOfBits (field w 8 3)

/-- The displacement or argument: bits 7:0. -/
def lowByte (w : Word) : BitVec 8 := field w 0 8

/-- The source register field: bits 5:3. -/
def srField (w : Word) : RegField := regOfCode (field w 3 3)

/-- The destination register field: bits 2:0. -/
def drField (w : Word) : RegField := regOfCode (field w 0 3)

/-! ### The groups of the opcode map -/

/-- Format MR: the 23 words of R86 that take an address mode, by `w[15:11]`. -/
def decodeMemory (w : Word) (op : BitVec 5) : Option Instr :=
  let m := modeField w
  let d := lowByte w
  if op = 0b00000#5 then some (.stz m d)
  else if op = 0b00001#5 then some (.sta m d)
  else if op = 0b00010#5 then some (.stt m d)
  else if op = 0b00011#5 then some (.stx m d)
  else if op = 0b00100#5 then some (.std m d)
  else if op = 0b00101#5 then some (.ldd m d)
  else if op = 0b00110#5 then some (.stf m d)
  else if op = 0b00111#5 then some (.ldf m d)
  else if op = 0b01000#5 then some (.min m d)
  else if op = 0b01001#5 then some (.lda m d)
  else if op = 0b01010#5 then some (.ldt m d)
  else if op = 0b01011#5 then some (.ldx m d)
  else if op = 0b01100#5 then some (.add m d)
  else if op = 0b01101#5 then some (.sub m d)
  else if op = 0b01110#5 then some (.and m d)
  else if op = 0b01111#5 then some (.ora m d)
  else if op = 0b10000#5 then some (.fad m d)
  else if op = 0b10001#5 then some (.fsb m d)
  else if op = 0b10010#5 then some (.fmu m d)
  else if op = 0b10011#5 then some (.fdv m d)
  else if op = 0b10100#5 then some (.mpy m d)
  else if op = 0b10101#5 then some (.jmp m d)
  else if op = 0b10111#5 then some (.jpl m d)
  else none

/-- Format CJ, by the condition `w[10:8]` (R86). -/
def decodeConditionalJump (w : Word) : Instr :=
  let c := field w 8 3
  let d := lowByte w
  if c = 0 then .jap d
  else if c = 1 then .jan d
  else if c = 2 then .jaz d
  else if c = 3 then .jaf d
  else if c = 4 then .jpc d
  else if c = 5 then .jnc d
  else if c = 6 then .jxz d
  else .jxn d

/-- Format SK, by the condition `w[10:8]` (R87). -/
def decodeSkip (w : Word) : Instr :=
  let c := field w 8 3
  let s := srField w
  let d := drField w
  if c = 0 then .skpEql s d
  else if c = 1 then .skpGeq s d
  else if c = 2 then .skpGre s d
  else if c = 3 then .skpMgre s d
  else if c = 4 then .skpUeq s d
  else if c = 5 then .skpLss s d
  else if c = 6 then .skpLst s d
  else .skpMlst s d

/-- The rows 0140120 to 0140137 of R87, by the low six bits. -/
def decodeExtended01 (low : BitVec 6) : Except IllegalWord Instr :=
  if low = 0o20#6 then .ok .addd
  else if low = 0o21#6 then .ok .subd
  else if low = 0o22#6 then .ok .comd
  else if low = 0o23#6 then .ok .tset
  else if low = 0o24#6 then .ok .pack
  else if low = 0o25#6 then .ok .upack
  else if low = 0o26#6 then .ok .shde
  else if low = 0o27#6 then .ok .rdus
  else if low = 0o30#6 then .ok .bfill
  else if low = 0o31#6 then .ok .movb
  else if low = 0o32#6 then .ok .movbf
  else if low = 0o34#6 then .ok .init
  else if low = 0o35#6 then .ok .entr
  else if low = 0o36#6 then .ok .leave
  else if low = 0o37#6 then .ok .eleav
  else .error .extendedSlot

/-- The rows 0140300 to 0140304 of R87, by the low six bits. -/
def decodeExtended03 (low : BitVec 6) : Except IllegalWord Instr :=
  if low = 0o00#6 then .ok .setpt
  else if low = 0o01#6 then .ok .clept
  else if low = 0o02#6 then .ok .clnreent
  else if low = 0o03#6 then .ok .chreentpages
  else if low = 0o04#6 then .ok .clepu
  else .error .extendedSlot

/-- Format TX of R87, by the function `w[2:0]`. -/
def decodePhysical (w : Word) : Except IllegalWord Instr :=
  let fn := field w 0 3
  let delta := field w 3 3
  if fn = 0 then .ok (.ldatx delta)
  else if fn = 1 then .ok (.ldxtx delta)
  else if fn = 2 then .ok (.lddtx delta)
  else if fn = 3 then .ok (.ldbtx delta)
  else if fn = 4 then .ok (.statx delta)
  else if fn = 5 then .ok (.stztx delta)
  else if fn = 6 then .ok (.stdtx delta)
  else .error .extendedSlot

/-- The four IDENT words of R87, by the low six bits. -/
def decodeIdent (low : BitVec 6) : Except IllegalWord Instr :=
  if low = 0o04#6 then .ok .identPL10
  else if low = 0o11#6 then .ok .identPL11
  else if low = 0o22#6 then .ok .identPL12
  else if low = 0o43#6 then .ok .identPL13
  else .error .extendedSlot

/-- The range 0140000 to 0143777 (R87): a skip when bits 7:6 are 00, else by `w[10:6]`. -/
def decodeExtended (w : Word) : Except IllegalWord Instr :=
  let sub := field w 6 5
  let low := field w 0 6
  if field w 6 2 = 0 then .ok (decodeSkip w)
  else if sub = 0b00001#5 then decodeExtended01 low
  else if sub = 0b00011#5 then decodeExtended03 low
  else if sub = 0b00110#5 then .ok (.exr (srField w))
  else if sub = 0b01010#5 then .ok (.rmpy (srField w) (drField w))
  else if sub = 0b01110#5 then .ok (.rdiv (srField w))
  else if sub = 0b10010#5 then .ok .lbyt
  else if sub = 0b10110#5 then .ok .sbyt
  else if sub = 0b11001#5 then (if low = 0 then .ok .movew else .error .extendedSlot)
  else if sub = 0b11010#5 then .ok .mix3
  else if sub = 0b11011#5 then decodePhysical w
  else if sub = 0b11101#5 then (if low = 0 then .ok .lwcs else .error .extendedSlot)
  else if sub = 0b11110#5 then decodeIdent low
  else .error .extendedSlot

/-- Format RO (R86): RADD when bit 10 is set, else by `w[9:8]`. -/
def decodeRegisterOp (w : Word) : Instr :=
  let f := field w 8 2
  let cm1 := fieldBit w 7
  let cld := fieldBit w 6
  let s := srField w
  let d := drField w
  if fieldBit w 10 then .radd (fieldBit w 9) (fieldBit w 8) cm1 cld s d
  else if f = 0 then .swap cm1 cld s d
  else if f = 1 then .rand cm1 cld s d
  else if f = 2 then .rexo cm1 cld s d
  else .rora cm1 cld s d

/-- The rows 0150400 to 0150417 of R88, by the low byte. -/
def decodeSwitch (low : BitVec 8) : Except IllegalWord Instr :=
  if low = 0o00#8 then .ok .opcom
  else if low = 0o01#8 then .ok .iof
  else if low = 0o02#8 then .ok .ion
  else if low = 0o04#8 then .ok .pof
  else if low = 0o05#8 then .ok .piof
  else if low = 0o06#8 then .ok .sex
  else if low = 0o07#8 then .ok .rex
  else if low = 0o10#8 then .ok .pon
  else if low = 0o12#8 then .ok .pion
  else if low = 0o15#8 then .ok .ioxt
  else if low = 0o16#8 then .ok .exam
  else if low = 0o17#8 then .ok .depo
  else .error .systemSlot

/-- Format M4 of R88, by `w[7:6]`; bits 5:4 must be 00 (R92). -/
def decodeInternal (w : Word) : Except IllegalWord Instr :=
  let k := field w 6 2
  let n := field w 0 4
  if field w 4 2 = 0 then
    if k = 0 then .ok (.tra n)
    else if k = 1 then .ok (.trr n)
    else if k = 2 then .ok (.mcl n)
    else .ok (.mst n)
  else .error .systemSlot

/-- The rows SRB and LRB of R88. -/
def decodeBlock (w : Word) : Except IllegalWord Instr :=
  let level := field w 3 4
  if fieldBit w 7 then (if field w 0 3 = 0 then .ok (.lrb level) else .error .systemSlot)
  else (if field w 0 3 = 2 then .ok (.srb level) else .error .systemSlot)

/-- The range 0150000 to 0153777 (R88), by `w[10:8]`. -/
def decodeSystem (w : Word) : Except IllegalWord Instr :=
  let k := field w 8 3
  if k = 0 then decodeInternal w
  else if k = 1 then decodeSwitch (lowByte w)
  else if k = 2 then .ok .wait
  else if k = 3 then .ok (.nlz (lowByte w).toInt)
  else if k = 4 then .ok (.dnz (lowByte w).toInt)
  else if k = 5 then decodeBlock w
  else if k = 6 then .ok (.mon (lowByte w))
  else if fieldBit w 7 then .ok (.irr (field w 3 4) (drField w))
  else .ok (.irw (field w 3 4) (drField w))

/-- Format SH (R86), by the register `w[8:7]`; bit 6 is ignored (R92). -/
def decodeShift (w : Word) : Instr :=
  let t := shiftTypeOfBits (field w 9 2)
  let n := (field w 0 6).toInt
  let r := field w 7 2
  if r = 0 then .sht t n
  else if r = 1 then .shd t n
  else if r = 2 then .sha t n
  else .sad t n

/-- Format AR (R86), by the function `w[10:8]`. -/
def decodeArgument (w : Word) : Instr :=
  let f := field w 8 3
  let arg := lowByte w
  if f = 0 then .sab arg
  else if f = 1 then .saa arg
  else if f = 2 then .sat arg
  else if f = 3 then .sax arg
  else if f = 4 then .aab arg
  else if f = 5 then .aaa arg
  else if f = 6 then .aat arg
  else .aax arg

/-- Format BO (R86), by the function `w[10:7]`. -/
def decodeBit (w : Word) : Instr :=
  let f := field w 7 4
  let bn := (field w 3 4).toNat
  let d := drField w
  if f = 0 then .bsetZro bn d
  else if f = 1 then .bsetOne bn d
  else if f = 2 then .bsetBcm bn d
  else if f = 3 then .bsetBac bn d
  else if f = 4 then .bskpZro bn d
  else if f = 5 then .bskpOne bn d
  else if f = 6 then .bskpBcm bn d
  else if f = 7 then .bskpBac bn d
  else if f = 8 then .bstc bn d
  else if f = 9 then .bsta bn d
  else if f = 10 then .bldc bn d
  else if f = 11 then .blda bn d
  else if f = 12 then .banc bn d
  else if f = 13 then .band bn d
  else if f = 14 then .borc bn d
  else .bora bn d

/-- The first level of the opcode map (R86), on `w[15:11]`. -/
def decode (w : Word) : Except IllegalWord Instr :=
  let op := field w 11 5
  if op = 0b10110#5 then .ok (decodeConditionalJump w)
  else if op = 0b11000#5 then decodeExtended w
  else if op = 0b11001#5 then .ok (decodeRegisterOp w)
  else if op = 0b11010#5 then decodeSystem w
  else if op = 0b11011#5 then .ok (decodeShift w)
  else if op = 0b11101#5 then .ok (.iox (field w 0 11))
  else if op = 0b11110#5 then .ok (decodeArgument w)
  else if op = 0b11111#5 then .ok (decodeBit w)
  else match decodeMemory w op with
    | some i => .ok i
    | none => .error .unassigned

/-- A word from its two bytes, the even one first: bits 15:8 (20_memory.md R41). -/
def wordOfBytes (high low : Byte) : Word := high ++ low

/-- The decoder over bytes: one instruction, one word (R81), and the bytes after it. -/
def decodeBytes : List Byte → Except IllegalWord (Instr × List Byte)
  | high :: low :: rest => (decode (wordOfBytes high low)).map (·, rest)
  | _ => .error .truncated

/-- The instruction the decoder reads from the table's bits `w`, of which `nbits` are given. -/
def decodeTableWord (nbits w : Nat) : Option Instr :=
  let word : Word := BitVec.ofNat 16 (w % 2 ^ nbits)
  match decodeBytes [field word 8 8, field word 0 8] with
  | .ok (i, _) => some i
  | .error _ => none

/-! ### The encoder -/

/-- Format MR. -/
def encMR (op : BitVec 5) (m : Mode) (d : BitVec 8) : Word := op ++ bitsOfMode m ++ d

/-- Format CJ. -/
def encCJ (cond : BitVec 3) (d : BitVec 8) : Word := 0b10110#5 ++ cond ++ d

/-- Format SK. -/
def encSK (cond : BitVec 3) (sr dr : RegField) : Word :=
  0b11000#5 ++ cond ++ 0#2 ++ codeOfReg sr ++ codeOfReg dr

/-- Format XR and the fixed words of R87: `w[10:6]` and the two low fields. -/
def encXR (sub : BitVec 5) (hi lo : BitVec 3) : Word := 0b11000#5 ++ sub ++ hi ++ lo

/-- Format RO. -/
def encRO (rad : Bool) (f : BitVec 2) (cm1 cld : Bool) (sr dr : RegField) : Word :=
  0b11001#5 ++ BitVec.ofBool rad ++ f ++ BitVec.ofBool cm1 ++ BitVec.ofBool cld
    ++ codeOfReg sr ++ codeOfReg dr

/-- Format M4. -/
def encM4 (k : BitVec 2) (n : BitVec 4) : Word := 0b11010#5 ++ 0#3 ++ k ++ 0#2 ++ n

/-- Format M8 and the fixed words 01504xx of R88. -/
def encM8 (k : BitVec 3) (n : BitVec 8) : Word := 0b11010#5 ++ k ++ n

/-- Format ML. -/
def encML (k : BitVec 4) (level : Level) (reg : BitVec 3) : Word := 0b11010#5 ++ k ++ level ++ reg

/-- Format SH, with the ignored bit 6 zero. -/
def encSH (t : ShiftType) (reg : BitVec 2) (n : Int) : Word :=
  0b11011#5 ++ bitsOfShiftType t ++ reg ++ 0#1 ++ BitVec.ofInt 6 n

/-- Format IO. -/
def encIO (dev : BitVec 11) : Word := 0b11101#5 ++ dev

/-- Format AR. -/
def encAR (fn : BitVec 3) (arg : BitVec 8) : Word := 0b11110#5 ++ fn ++ arg

/-- Format BO. -/
def encBO (fn : BitVec 4) (bn : Nat) (dr : RegField) : Word :=
  0b11111#5 ++ fn ++ BitVec.ofNat 4 bn ++ codeOfReg dr

/-- The word of an instruction (R86 to R88), ignored bits zero (R92). -/
def encode : Instr → Word
  | .stz m d => encMR 0b00000#5 m d
  | .sta m d => encMR 0b00001#5 m d
  | .stt m d => encMR 0b00010#5 m d
  | .stx m d => encMR 0b00011#5 m d
  | .std m d => encMR 0b00100#5 m d
  | .ldd m d => encMR 0b00101#5 m d
  | .stf m d => encMR 0b00110#5 m d
  | .ldf m d => encMR 0b00111#5 m d
  | .min m d => encMR 0b01000#5 m d
  | .lda m d => encMR 0b01001#5 m d
  | .ldt m d => encMR 0b01010#5 m d
  | .ldx m d => encMR 0b01011#5 m d
  | .add m d => encMR 0b01100#5 m d
  | .sub m d => encMR 0b01101#5 m d
  | .and m d => encMR 0b01110#5 m d
  | .ora m d => encMR 0b01111#5 m d
  | .fad m d => encMR 0b10000#5 m d
  | .fsb m d => encMR 0b10001#5 m d
  | .fmu m d => encMR 0b10010#5 m d
  | .fdv m d => encMR 0b10011#5 m d
  | .mpy m d => encMR 0b10100#5 m d
  | .jmp m d => encMR 0b10101#5 m d
  | .jap d => encCJ 0 d
  | .jan d => encCJ 1 d
  | .jaz d => encCJ 2 d
  | .jaf d => encCJ 3 d
  | .jpc d => encCJ 4 d
  | .jnc d => encCJ 5 d
  | .jxz d => encCJ 6 d
  | .jxn d => encCJ 7 d
  | .jpl m d => encMR 0b10111#5 m d
  | .skpEql s d => encSK 0 s d
  | .skpGeq s d => encSK 1 s d
  | .skpGre s d => encSK 2 s d
  | .skpMgre s d => encSK 3 s d
  | .skpUeq s d => encSK 4 s d
  | .skpLss s d => encSK 5 s d
  | .skpLst s d => encSK 6 s d
  | .skpMlst s d => encSK 7 s d
  | .addd => encXR 0b00001#5 0o2 0o0
  | .subd => encXR 0b00001#5 0o2 0o1
  | .comd => encXR 0b00001#5 0o2 0o2
  | .pack => encXR 0b00001#5 0o2 0o4
  | .upack => encXR 0b00001#5 0o2 0o5
  | .shde => encXR 0b00001#5 0o2 0o6
  | .bfill => encXR 0b00001#5 0o3 0o0
  | .movb => encXR 0b00001#5 0o3 0o1
  | .movbf => encXR 0b00001#5 0o3 0o2
  | .init => encXR 0b00001#5 0o3 0o4
  | .entr => encXR 0b00001#5 0o3 0o5
  | .leave => encXR 0b00001#5 0o3 0o6
  | .eleav => encXR 0b00001#5 0o3 0o7
  | .setpt => encXR 0b00011#5 0o0 0o0
  | .clept => encXR 0b00011#5 0o0 0o1
  | .clnreent => encXR 0b00011#5 0o0 0o2
  | .chreentpages => encXR 0b00011#5 0o0 0o3
  | .clepu => encXR 0b00011#5 0o0 0o4
  | .movew => encXR 0b11001#5 0 0
  | .lwcs => encXR 0b11101#5 0 0
  | .tset => encXR 0b00001#5 0o2 0o3
  | .rdus => encXR 0b00001#5 0o2 0o7
  | .exr s => encXR 0b00110#5 (codeOfReg s) 0
  | .rmpy s d => encXR 0b01010#5 (codeOfReg s) (codeOfReg d)
  | .rdiv s => encXR 0b01110#5 (codeOfReg s) 0
  | .lbyt => encXR 0b10010#5 0 0
  | .sbyt => encXR 0b10110#5 0 0
  | .mix3 => encXR 0b11010#5 0 0
  | .ldatx delta => encXR 0b11011#5 delta 0
  | .ldxtx delta => encXR 0b11011#5 delta 1
  | .lddtx delta => encXR 0b11011#5 delta 2
  | .ldbtx delta => encXR 0b11011#5 delta 3
  | .statx delta => encXR 0b11011#5 delta 4
  | .stztx delta => encXR 0b11011#5 delta 5
  | .stdtx delta => encXR 0b11011#5 delta 6
  | .identPL10 => encXR 0b11110#5 0o0 0o4
  | .identPL11 => encXR 0b11110#5 0o1 0o1
  | .identPL12 => encXR 0b11110#5 0o2 0o2
  | .identPL13 => encXR 0b11110#5 0o4 0o3
  | .swap cm1 cld s d => encRO false 0 cm1 cld s d
  | .rand cm1 cld s d => encRO false 1 cm1 cld s d
  | .rexo cm1 cld s d => encRO false 2 cm1 cld s d
  | .rora cm1 cld s d => encRO false 3 cm1 cld s d
  | .radd adc ad1 cm1 cld s d =>
    encRO true (BitVec.ofBool adc ++ BitVec.ofBool ad1) cm1 cld s d
  | .tra n => encM4 0 n
  | .trr n => encM4 1 n
  | .mcl n => encM4 2 n
  | .mst n => encM4 3 n
  | .opcom => encM8 1 0o00
  | .iof => encM8 1 0o01
  | .ion => encM8 1 0o02
  | .pof => encM8 1 0o04
  | .piof => encM8 1 0o05
  | .sex => encM8 1 0o06
  | .rex => encM8 1 0o07
  | .pon => encM8 1 0o10
  | .pion => encM8 1 0o12
  | .ioxt => encM8 1 0o15
  | .exam => encM8 1 0o16
  | .depo => encM8 1 0o17
  | .wait => encM8 2 0
  | .nlz n => encM8 3 (BitVec.ofInt 8 n)
  | .dnz n => encM8 4 (BitVec.ofInt 8 n)
  | .srb level => encML 0b1010#4 level 2
  | .lrb level => encML 0b1011#4 level 0
  | .mon n => encM8 6 n
  | .irw level r => encML 0b1110#4 level (codeOfReg r)
  | .irr level r => encML 0b1111#4 level (codeOfReg r)
  | .sht t n => encSH t 0 n
  | .shd t n => encSH t 1 n
  | .sha t n => encSH t 2 n
  | .sad t n => encSH t 3 n
  | .iox dev => encIO dev
  | .sab arg => encAR 0 arg
  | .saa arg => encAR 1 arg
  | .sat arg => encAR 2 arg
  | .sax arg => encAR 3 arg
  | .aab arg => encAR 4 arg
  | .aaa arg => encAR 5 arg
  | .aat arg => encAR 6 arg
  | .aax arg => encAR 7 arg
  | .bsetZro bn d => encBO 0 bn d
  | .bsetOne bn d => encBO 1 bn d
  | .bsetBcm bn d => encBO 2 bn d
  | .bsetBac bn d => encBO 3 bn d
  | .bskpZro bn d => encBO 4 bn d
  | .bskpOne bn d => encBO 5 bn d
  | .bskpBcm bn d => encBO 6 bn d
  | .bskpBac bn d => encBO 7 bn d
  | .bstc bn d => encBO 8 bn d
  | .bsta bn d => encBO 9 bn d
  | .bldc bn d => encBO 10 bn d
  | .blda bn d => encBO 11 bn d
  | .banc bn d => encBO 12 bn d
  | .band bn d => encBO 13 bn d
  | .borc bn d => encBO 14 bn d
  | .bora bn d => encBO 15 bn d

/-- The bytes of an instruction as memory holds them, the even byte first (20_memory.md R41). -/
def encodeBytes (i : Instr) : List Byte := [field (encode i) 8 8, field (encode i) 0 8]

end Sys2Proof
end

