-- ==== Sys2Proof/Config.lean ====
section
/-! DEFINITION. The parameters of spec/00_scope.md R5 that are functions. An `opaque` constant has no body: a
proof holds whatever its value is. The OPEN parameters of R5 that are data, `PHYS_WORDS`, `ALD` and
`ExtRegRead`, are fields of `State` (logs 4 and 7). -/

namespace Sys2Proof

/-- What a byte of physical memory that nothing has written reads as. The spec leaves the contents at
reset to the launch input (10_state.md R24). DESIGN CHOICE, unsafe, log 2. -/
def Config.unlistedByte : Byte := 0

/-- What the parameter `DivZero` of R5 may ask for (44_muldiv_byte.md R203): no meaning for the step,
which is the spec's default, or a quotient for A and a remainder for D. -/
inductive DivZero where
  | refuse
  | result (quotient remainder : Word)
deriving DecidableEq, Repr, Inhabited

/-- The parameter `DivZero`, OPEN in R5, as a function of the operands A and D of `RDIV` when its
divisor is 0. DESIGN CHOICE, safe, log 5: neither answer is assumed. -/
opaque Config.divZero : Word → Word → DivZero

/-- The parameter `IoOp` of R5 (46_system.md R275): the answer of the devices to the `n`-th call, with
the device address and the old A; it gives the new A and whether a device answered. Any value (row 8
of 93_implementation_defined.md). Log 6. -/
opaque Config.ioOp : (n : Nat) → (address old : Word) → Word × Bool

/-- The parameter `ExtRegWrite` of R5 (46_system.md R251, R254): what the registers outside the block
present to TRA after TRR wrote the value `v` to the register of number `n`, from what they presented before.
R5 leaves it open with the default that the write is ignored. Log 7: neither is assumed. -/
opaque Config.extRegWrite : (n : BitVec 4) → (v : Word) → (presented : Vector Word 16) → Vector Word 16

end Sys2Proof
end

