-- ==== Sys2Proof/Machine/State.lean ====
section
/-! DEFINITION. The state of the machine: everything spec/10_state.md names, as plain data, and the
state after reset (70_reset_and_hazards.md R350). -/

namespace Sys2Proof.Machine

/-- The registers of one priority level (10_state.md R10). `flags` is FLAGS[l], the low byte of the
level's STS (R13, R14); the high byte is shared by all levels and stands in `State`. -/
structure Bank where
  flags : BitVec 8
  d : Word
  p : Word
  b : Word
  l : Word
  a : Word
  t : Word
  x : Word
  /-- Registers 8 to 15, which no instruction reads or writes (R12). -/
  scratch : Vector Word 8
deriving DecidableEq, Repr

/-- One entry of the ident chain (10_state.md R17). -/
structure IdentEntry where
  level : Level
  code : Word
  caller : Nat
deriving DecidableEq, Repr

/-- The run mode (10_state.md R21). -/
inductive RunMode where
  | run | stop | step | shutdown
deriving DecidableEq, Repr

/-- One atomic action of a device agent or of the host (00_scope.md R4, R9; log 8). -/
inductive EnvAction where
  /-- `RaiseInterrupt(level, subcode)` (60_exceptions.md R335). -/
  | raiseInterrupt (level : Level) (mask : Word)
  /-- A device's interrupt with its ident-chain entry, one action (R336). -/
  | deviceInterrupt (level : Level) (code : Word) (caller : Nat)
  /-- `PhysWrite`, by a device or a loader (R4). -/
  | physWrite (address : PhysAddr) (value : Word)
  /-- The translated accesses, exposed for loaders (R4; in which run modes: log 19). -/
  | memRead (address : Word) (alternate : Bool)
  | memWrite (address : Word) (alternate : Bool) (value : Word)
  | memFetch (address : Word) (alternate : Bool)
  /-- The host writes the level-0 P before it starts the CPU (70_reset_and_hazards.md R351): it acts in STOP
  and does nothing in RUN or STEP (DESIGN CHOICE, log 19). -/
  | setStartAddress (value : Word)
  /-- The host sets the run mode (60_exceptions.md R340). -/
  | setRunMode (mode : RunMode)
  /-- A register outside the block changes what it presents to TRA (46_system.md R251; log 7). -/
  | setExternal (n : BitVec 4) (value : Word)
deriving DecidableEq, Repr

/-- Whose turn it is in the interleaving of R9 (log 8). -/
inductive Turn where
  | cpu
  | env (action : EnvAction)
deriving DecidableEq, Repr

/-- Memory as cells in one canonical form: addresses strictly rising, no cell equal to what an
unlisted byte reads as. Byte `2 * pa` is bits 15:8 of physical word `pa`, byte `2 * pa + 1` bits 7:0
(20_memory.md R41; log 3). -/
abbrev Memory := List Host.Cell

/-- The state of the machine. -/
structure State where
  /-- The register file (R10). -/
  banks : Vector Bank 16
  /-- STS bit 15, interrupt system on (R13). -/
  ioni : Bool
  /-- STS bit 14, memory management on (R13). -/
  poni : Bool
  /-- STS bit 13, extended addressing (R13). -/
  sexi : Bool
  /-- STS bits 11:8, the current level (R13). -/
  pil : Level
  /-- Pending levels (R15). -/
  pid : Word
  /-- Enabled levels (R15). -/
  pie : Word
  /-- Detected internal causes (R15). -/
  iid : Word
  /-- Enabled internal causes (R15). -/
  iie : Word
  /-- The level before the last switch (R16). -/
  pvl : Level
  /-- Pending, unacknowledged device interrupts, oldest first (R17). -/
  identChain : List IdentEntry
  /-- The four page tables of 64 entries (R18). -/
  pt : Vector (Vector Pte 64) 4
  /-- The page-control register of each level (R19). -/
  pcr : Vector Word 16
  /-- The fault syndrome (R20). -/
  pgs : Word
  /-- The run mode (R21). -/
  runMode : RunMode
  /-- Physical memory (R24). -/
  mem : Memory
  /-- The parameter `PHYS_WORDS`: how many words of memory are installed (00_scope.md R5, 20_memory.md R59).
  No step changes it (log 4). -/
  physWords : Nat
  /-- What the surrounding machine presents to `TRA n`: entry 012 (octal) is `ALD`, the others
  `ExtRegRead(n)` (00_scope.md R5, 46_system.md R252; log 7). -/
  ext : Vector Word 16
  /-- The model's own: how many calls of `IoOp` were made (log 6). -/
  ioCount : Nat
  /-- The model's own: the turns to come of the CPU, the devices and the host; empty means the CPU's
  (log 8). -/
  turns : List Turn
deriving DecidableEq, Repr

/-- Why the machine stops with a fault. -/
inductive Fault where
  /-- Raised by `step` when RunMode is SHUTDOWN, which is terminal: "no further step is taken" (R21,
  46_system.md R290). Safe: the machine does nothing more. -/
  | shutdown
deriving DecidableEq, Repr

/-- Why a step has no meaning. -/
inductive Refusal where
  /-- Raised by an arm of `exec` whose instruction has no meaning yet. Safe. No arm does. -/
  | notModelled (mnemonic : String)
  /-- Raised by RDIV with divisor 0 where the parameter `DivZero` says refuse, its default in R5
  (44_muldiv_byte.md R203). Safe: nothing is claimed of such a run. -/
  | divZero
  /-- Raised by an access, of an instruction, a device or a loader, to a physical address at or above
  `PHYS_WORDS` (20_memory.md R59). It cannot arise with the default 2^24. Safe. -/
  | beyondPhysWords
deriving DecidableEq, Repr

/-- The bank after reset: every register and flag 0 (R350). -/
def Bank.reset : Bank :=
  { flags := 0, d := 0, p := 0, b := 0, l := 0, a := 0, t := 0, x := 0, scratch := .replicate 8 0 }

/-- The state after reset (70_reset_and_hazards.md R350). Memory lists nothing (log 2), the parameters that
are data have the defaults of R5 (logs 4 and 7), and the model's own fields are 0 and empty (logs 6 and 8). -/
def State.reset : State :=
  { banks := .replicate 16 Bank.reset
    ioni := false
    poni := false
    sexi := false
    pil := 0
    pid := 0
    pie := 0
    iid := 0
    iie := 0
    pvl := 0
    identChain := []
    pt := .replicate 4 (.replicate 64 0)
    pcr := .replicate 16 0
    pgs := 0
    runMode := .stop
    mem := []
    physWords := 2 ^ 24
    ext := .replicate 16 0
    ioCount := 0
    turns := [] }

end Sys2Proof.Machine
end

