-- ==== Sys2Proof/Machine/Memory.lean ====
section
/-! DEFINITION. Memory as canonical cells: one byte read and written, one physical word read and
written (20_memory.md R40, R41, R57, R58). -/

namespace Sys2Proof.Machine

/-- The byte at a byte address. -/
def Memory.readByte : Memory → Nat → Byte
  | [], _ => Config.unlistedByte
  | (k, v) :: m, a => if k = a then v else Memory.readByte m a

/-- Puts a cell before the first cell of a larger address. -/
def Memory.insertCell : Memory → Nat → Byte → Memory
  | [], a, v => [(a, v)]
  | (k, w) :: m, a, v =>
    if a < k then (a, v) :: (k, w) :: m else (k, w) :: Memory.insertCell m a v

/-- Removes every cell of an address. -/
def Memory.removeCell : Memory → Nat → Memory
  | [], _ => []
  | (k, w) :: m, a => if k = a then Memory.removeCell m a else (k, w) :: Memory.removeCell m a

/-- Writes one byte, keeping the canonical form: a byte equal to an unlisted one is not listed. -/
def Memory.writeByte (m : Memory) (a : Nat) (v : Byte) : Memory :=
  if v = Config.unlistedByte then m.removeCell a else (m.removeCell a).insertCell a v

/-- The cells after byte address `lo` rise strictly, are listed for a reason, and lie among the two bytes of
each of the 2^24 words of the address space (10_state.md R24). -/
def Memory.wfFrom : Nat → Memory → Bool
  | _, [] => true
  | lo, (k, v) :: m =>
    decide (lo ≤ k) && decide (k < 2 * 2 ^ 24) && decide (v ≠ Config.unlistedByte)
      && Memory.wfFrom (k + 1) m

/-- The canonical form: addresses strictly rising and below the end of the address space, no cell equal to what
an unlisted byte reads as. -/
def Memory.wf (m : Memory) : Bool := Memory.wfFrom 0 m

/-- The byte address of bits 15:8 of a physical word (R41: the even byte). -/
def highByteAddr (pa : PhysAddr) : Nat := 2 * pa.toNat

/-- The byte address of bits 7:0 of a physical word (R41: the odd byte). -/
def lowByteAddr (pa : PhysAddr) : Nat := 2 * pa.toNat + 1

/-- `Phys[pa]` (R24). -/
def Memory.readWord (m : Memory) (pa : PhysAddr) : Word :=
  m.readByte (highByteAddr pa) ++ m.readByte (lowByteAddr pa)

/-- `Phys[pa] <- v` (R57). -/
def Memory.writeWord (m : Memory) (pa : PhysAddr) (v : Word) : Memory :=
  (m.writeByte (highByteAddr pa) (v.extractLsb' 8 8)).writeByte (lowByteAddr pa) (v.extractLsb' 0 8)

/-- The byte-select write (R58): `sel` false writes bits 15:8, true bits 7:0. -/
def Memory.writeSelected (m : Memory) (pa : PhysAddr) (sel : Bool) (v : Byte) : Memory :=
  m.writeByte (if sel then lowByteAddr pa else highByteAddr pa) v

end Sys2Proof.Machine
end

