-- ==== Sys2Proof/Machine/Ops.lean ====
section
/-! DEFINITION. The named operations over registers, flags, interrupt state and memory: the primitives
of spec/00_scope.md R7, the access path of 20_memory.md, taking an exception and giving up a level. -/

namespace Sys2Proof.Machine

/-- What a meaning answers. -/
abbrev Result := Host.Outcome State Fault Refusal

/-! ### Bits -/

/-- Bit `i` of a vector set to `v` (R6). -/
def setBitTo {w : Nat} (bits : BitVec w) (i : Nat) (v : Bool) : BitVec w :=
  if v then bits ||| (1#w <<< i) else bits &&& ~~~(1#w <<< i)

/-- An 8-bit two's-complement field as a word (30_encoding.md R85). -/
def sext8 (v : BitVec 8) : Word := v.signExtend 16

/-- The number of the highest set bit among bits `n` to 0, or 0. -/
def highestBitBelow (v : Word) : Nat → Nat
  | 0 => 0
  | n + 1 => if v.getLsbD (n + 1) then n + 1 else highestBitBelow v n

/-- The number of the highest set bit, 0 if there is none (60_exceptions.md R312). -/
def highestBit (v : Word) : Level := BitVec.ofNat 4 (highestBitBelow v 15)

/-! ### The register file (10_state.md R10, R11) -/

/-- A register of a bank. -/
def Bank.get (k : Bank) : Reg → Word
  | .d => k.d
  | .p => k.p
  | .b => k.b
  | .l => k.l
  | .a => k.a
  | .t => k.t
  | .x => k.x

/-- A bank with one register written. -/
def Bank.set (k : Bank) (r : Reg) (v : Word) : Bank :=
  match r with
  | .d => { k with d := v }
  | .p => { k with p := v }
  | .b => { k with b := v }
  | .l => { k with l := v }
  | .a => { k with a := v }
  | .t => { k with t := v }
  | .x => { k with x := v }

/-- The bank of a level. -/
def State.bank (s : State) (l : Level) : Bank := s.banks[l.toNat]'l.isLt

/-- The state with one level's bank replaced. -/
def State.setBank (s : State) (l : Level) (k : Bank) : State :=
  { s with banks := s.banks.set l.toNat k l.isLt }

/-- `R[l][r]`. -/
def State.reg (s : State) (l : Level) (r : Reg) : Word := (s.bank l).get r

/-- `R[l][r] <- v`. -/
def State.setReg (s : State) (l : Level) (r : Reg) (v : Word) : State :=
  s.setBank l ((s.bank l).set r v)

/-- `FLAGS[l]` (R13). -/
def State.flags (s : State) (l : Level) : BitVec 8 := (s.bank l).flags

/-- `FLAGS[l] <- f`. -/
def State.setFlags (s : State) (l : Level) (f : BitVec 8) : State :=
  s.setBank l { s.bank l with flags := f }

/-- A register of the current level (R11). -/
def State.cur (s : State) (r : Reg) : Word := s.reg s.pil r

/-- Writes a register of the current level. -/
def State.setCur (s : State) (r : Reg) (v : Word) : State := s.setReg s.pil r v

/-- `FLAGS[L]`. -/
def State.curFlags (s : State) : BitVec 8 := s.flags s.pil

/-- `FLAGS[L] <- f`. -/
def State.setCurFlags (s : State) (f : BitVec 8) : State := s.setFlags s.pil f

/-- `STSH`: bits 15:8 of STS, one copy for the CPU; N100 is the constant 1 (R13; log 15). -/
def State.stsh (s : State) : BitVec 8 :=
  BitVec.ofBool s.ioni ++ BitVec.ofBool s.poni ++ BitVec.ofBool s.sexi ++ 1#1 ++ s.pil

/-- STS as read on level `l`: `STSH : FLAGS[l]` (R13). -/
def State.sts (s : State) (l : Level) : Word := s.stsh ++ s.flags l

/-! ### Page tables and page-control registers (10_state.md R18, R19) -/

/-- `PT[t][i]`. -/
def State.pte (s : State) (t : BitVec 2) (i : BitVec 6) : Pte := (s.pt[t.toNat]'t.isLt)[i.toNat]'i.isLt

/-- `PT[t][i] <- e`. -/
def State.setPte (s : State) (t : BitVec 2) (i : BitVec 6) (e : Pte) : State :=
  { s with pt := s.pt.set t.toNat ((s.pt[t.toNat]'t.isLt).set i.toNat e i.isLt) t.isLt }

/-- `PCR[l]`. -/
def State.pcrOf (s : State) (l : Level) : Word := s.pcr[l.toNat]'l.isLt

/-- `PCR[l] <- v`. -/
def State.setPcr (s : State) (l : Level) (v : Word) : State :=
  { s with pcr := s.pcr.set l.toNat v l.isLt }

/-- The ring of the current level, `PCR[L][1:0]` (R19). -/
def State.ring (s : State) : BitVec 2 := (s.pcrOf s.pil).extractLsb' 0 2

/-- The value an external register presents to TRA (46_system.md R251; log 7). -/
def State.external (s : State) (n : BitVec 4) : Word := s.ext[n.toNat]'n.isLt

/-- An external register changes what it presents (log 7). -/
def State.setExternal (s : State) (n : BitVec 4) (v : Word) : State :=
  { s with ext := s.ext.set n.toNat v n.isLt }

/-! ### How an instruction ends (00_scope.md R7) -/

/-- `pc <- target`. -/
def State.jump (s : State) (target : Word) : State := s.setCur .p target

/-- `next`: P + 1 modulo 2^16. -/
def State.next (s : State) : State := s.jump (s.cur .p + 1)

/-- `skip`: P + 2 modulo 2^16. -/
def State.skip (s : State) : State := s.jump (s.cur .p + 2)

/-- `skip` if the condition holds, else `next`. -/
def State.skipIf (s : State) (c : Bool) : State := if c then s.skip else s.next

/-! ### Interrupts: raising, taking, giving up (60_exceptions.md R311 to R316) -/

/-- The internal causes of R320. -/
inductive Cause where
  | monitorCall | protectViolation | pageFault | illegalInstruction | zError
  | privilegedInstruction | ioxError | parityError | outOfRange | powerFail
deriving DecidableEq, Repr

/-- The code of a cause: its bit in IID and IIE (R320). -/
def Cause.code : Cause → Nat
  | .monitorCall => 1
  | .protectViolation => 2
  | .pageFault => 3
  | .illegalInstruction => 4
  | .zError => 5
  | .privilegedInstruction => 6
  | .ioxError => 7
  | .parityError => 8
  | .outOfRange => 9
  | .powerFail => 10

/-- The mask of a cause, `1 << code` (R320). -/
def Cause.mask (c : Cause) : Word := 1#16 <<< c.code

/-- PK: the highest level pending and enabled, else 0 (R312). It is computed at every use, which is
the recomputation after each mutation that 10_state.md R15 asks for. -/
def State.pk (s : State) : Level := highestBit (s.pid &&& s.pie)

/-- `raise Int(level, mask)` (R311). -/
def State.raiseInt (s : State) (level : Level) (mask : Word) : State :=
  if level = 14 then
    { s with
      iid := s.iid ||| mask
      pid := if (s.iid ||| mask) &&& s.iie ≠ 0 then setBitTo s.pid 14 true else s.pid }
  else { s with pid := setBitTo s.pid level.toNat true }

/-- Raising an internal cause: the one way an instruction takes an exception (R320). The instruction's
P, advanced or not, is the instruction's own affair. -/
def State.raiseCause (s : State) (c : Cause) : State := s.raiseInt 14 c.mask

/-- The interrupt check and the level switch that end every CPU step (R314, R315). -/
def State.interruptCheck (s : State) : State :=
  if s.ioni && s.pk != s.pil then { s with pvl := s.pil, pil := s.pk } else s

/-- How a level gives up the CPU: its bit of PID is cleared, and the interrupt check that ends the step
goes to the highest level left (R316; 46_system.md R268). -/
def State.giveUp (s : State) : State := { s with pid := setBitTo s.pid s.pil.toNat false }

/-- The privileged-instruction check of the Dispatcher, then the instruction (R326). -/
def privileged (s : State) (k : State → Result) : Result :=
  if s.poni && decide (s.ring < 2) then .next (s.raiseCause .privilegedInstruction) else k s

/-! ### Accesses that may end the instruction (00_scope.md R7 `abandon`) -/

/-- An access or a sequence of accesses: a value and the state after it, or the instruction abandoned
in the state reached, or the step refused. -/
inductive Access (α : Type) where
  | ok (v : α) (s : State)
  | abandoned (s : State)
  | refused (r : Refusal)

/-- The instruction goes on after an access. -/
def Access.andThen {α : Type} (x : Access α) (k : α → State → Result) : Result :=
  match x with
  | .ok v s => k v s
  | .abandoned s => .next s
  | .refused r => .refused r

/-- One access after another. -/
def Access.bind {α β : Type} (x : Access α) (k : α → State → Access β) : Access β :=
  match x with
  | .ok v s => k v s
  | .abandoned s => .abandoned s
  | .refused r => .refused r

/-! ### The shadow window (20_memory.md R60 to R62) -/

/-- The first address of the window (R60). -/
def State.shadowBase (s : State) : Word := if s.sexi then 0o177000 else 0o177400

/-- Whether an address reaches the page tables (R60). -/
def State.isShadow (s : State) (addr : Word) : Bool :=
  decide (s.shadowBase ≤ addr) && (!s.poni || s.ring == 3)

/-- Which word of an entry a window address names: the one-word view of R62, or a half of R61. -/
inductive ShadowView where
  | narrow | high | low
deriving DecidableEq, Repr

/-- The word a view shows (R61, R62). -/
def shadowRead (e : Pte) : ShadowView → Word
  | .narrow => e.extractLsb' 27 5 ++ e.extractLsb' 24 2 ++ e.extractLsb' 0 9
  | .high => e.extractLsb' 16 16
  | .low => e.extractLsb' 0 16

/-- The entry after a word is written to a view (R61, R62). -/
def shadowWrite (e : Pte) (v : Word) : ShadowView → Pte
  | .narrow => v.extractLsb' 11 5 ++ 0#1 ++ v.extractLsb' 9 2 ++ 0#10 ++ 0#5 ++ v.extractLsb' 0 9
  | .high => v ++ e.extractLsb' 0 16
  | .low => e.extractLsb' 16 16 ++ v

/-! ### Translation (20_memory.md R45 to R56) -/

/-- The access kinds (R51). -/
inductive AccessKind where
  | read | write | fetch
deriving DecidableEq, Repr

/-- The three faults (R54). -/
inductive MmuFault where
  | pageFault | ringViolation | protectionViolation
deriving DecidableEq, Repr

/-- Where an access goes. A physical place names the page-table entry whose marker bits the access
sets, if it was translated. -/
inductive Location where
  | shadow (t : BitVec 2) (i : BitVec 6) (view : ShadowView)
  | physical (pa : PhysAddr) (entry : Option (BitVec 2 × BitVec 6))
  | fault (cause : MmuFault) (t : BitVec 2) (vpn : BitVec 6)
deriving DecidableEq, Repr

/-- The permit bit an access kind needs (R52). -/
def permitBit : AccessKind → Nat
  | .write => 31
  | .read => 30
  | .fetch => 29

/-- PTM of the current level: flag bit 0 (10_state.md R14). -/
def State.ptm (s : State) : Bool := s.curFlags.getLsbD 0

/-- `SelectTable` (R53). -/
def State.selectTable (s : State) (apt : Bool) : BitVec 2 :=
  if apt && s.ptm then (s.pcrOf s.pil).extractLsb' 7 2 else (s.pcrOf s.pil).extractLsb' 9 2

/-- The physical page number of an entry: 14 bits, or 9 with SEXI = 0 (R52). -/
def State.pageNumber (s : State) (e : Pte) : BitVec 14 :=
  if s.sexi then e.extractLsb' 0 14 else (e.extractLsb' 0 9).zeroExtend 14

/-- The translation of R52, checks in its order. -/
def State.translate (s : State) (kind : AccessKind) (addr : Word) (apt : Bool) : Location :=
  let t := s.selectTable apt
  let vpn : BitVec 6 := addr.extractLsb' 10 6
  let e := s.pte t vpn
  if e.extractLsb' 29 3 = 0 then .fault .pageFault t vpn
  else if s.ring < e.extractLsb' 24 2 then .fault .ringViolation t vpn
  else if e.getLsbD (permitBit kind) = false then .fault .protectionViolation t vpn
  else .physical (s.pageNumber e ++ addr.extractLsb' 0 10) (some (t, vpn))

/-- The place in the window an address names (R61, R62). -/
def State.shadowLocation (s : State) (addr : Word) : Location :=
  let k := addr - s.shadowBase
  if s.sexi then
    .shadow (k.extractLsb' 7 2) (k.extractLsb' 1 6) (if k.getLsbD 0 then .low else .high)
  else .shadow (k.extractLsb' 6 2) (k.extractLsb' 0 6) .narrow

/-- The access sequence of R45: the window first, then the untranslated path of R46, then R52. -/
def State.locate (s : State) (kind : AccessKind) (addr : Word) (apt : Bool) : Location :=
  if s.isShadow addr then s.shadowLocation addr
  else if s.poni then s.translate kind addr apt
  else .physical (addr.zeroExtend 24) none

/-- The marker bits of a successful access (R55): used, and written for a write. -/
def State.mark (s : State) (kind : AccessKind) : Option (BitVec 2 × BitVec 6) → State
  | none => s
  | some (t, i) =>
    let e := setBitTo (s.pte t i) 27 true
    s.setPte t i (if kind = .write then setBitTo e 28 true else e)

/-- The syndrome of a fault (R56; 10_state.md R20). -/
def syndrome (kind : AccessKind) (cause : MmuFault) (t : BitVec 2) (vpn : BitVec 6) : Word :=
  BitVec.ofBool (kind = .fetch) ++ BitVec.ofBool (cause ≠ .ringViolation) ++ 0#6 ++ t ++ vpn

/-- The internal cause of a fault (60_exceptions.md R323). -/
def MmuFault.toCause : MmuFault → Cause
  | .pageFault => .pageFault
  | .ringViolation => .protectViolation
  | .protectionViolation => .protectViolation

/-- What a fault does: PGS, then the cause (R56). -/
def State.mmuFault (s : State) (kind : AccessKind) (c : MmuFault) (t : BitVec 2) (vpn : BitVec 6) :
    State :=
  { s with pgs := syndrome kind c t vpn }.raiseCause c.toCause

/-! ### Physical memory (20_memory.md R57 to R59) -/

/-- Whether a physical word is installed (R59). -/
def State.installed (s : State) (pa : PhysAddr) : Bool := decide (pa.toNat < s.physWords)

/-- `Phys[pa]`. -/
def State.phys (s : State) (pa : PhysAddr) : Word := s.mem.readWord pa

/-- `Phys[pa] <- v`. -/
def State.setPhys (s : State) (pa : PhysAddr) (v : Word) : State :=
  { s with mem := s.mem.writeWord pa v }

/-- `PhysRead(pa)` (R59, R63). -/
def State.physRead (s : State) (pa : PhysAddr) : Access Word :=
  if s.installed pa then .ok (s.phys pa) s else .refused .beyondPhysWords

/-- `PhysWrite(pa, v)` (R59, R63). -/
def State.physWrite (s : State) (pa : PhysAddr) (v : Word) : Access Unit :=
  if s.installed pa then .ok () (s.setPhys pa v) else .refused .beyondPhysWords

/-! ### Translated accesses -/

/-- What a write brings: a word, or one byte of it (R57, R58; `sel` true is bits 7:0). -/
inductive Datum where
  | word (v : Word)
  | byte (sel : Bool) (v : Byte)
deriving DecidableEq, Repr

/-- A word after a datum is written over it. -/
def Datum.over (old : Word) : Datum → Word
  | .word v => v
  | .byte sel v => if sel then old.extractLsb' 8 8 ++ v else v ++ old.extractLsb' 0 8

/-- Memory after a datum is written to a physical word. -/
def Memory.store (m : Memory) (pa : PhysAddr) : Datum → Memory
  | .word v => m.writeWord pa v
  | .byte sel v => m.writeSelected pa sel v

/-- A read or fetch at a place (R52, R56, R60). -/
def State.readAt (s : State) (kind : AccessKind) : Location → Access Word
  | .shadow t i view => .ok (shadowRead (s.pte t i) view) s
  | .physical pa e =>
    if s.installed pa then .ok (s.phys pa) (s.mark kind e) else .refused .beyondPhysWords
  | .fault c t vpn => .abandoned (s.mmuFault kind c t vpn)

/-- A write at a place (R52, R56, R60). -/
def State.writeAt (s : State) (datum : Datum) : Location → Access Unit
  | .shadow t i view =>
    let e := s.pte t i
    .ok () (s.setPte t i (shadowWrite e (datum.over (shadowRead e view)) view))
  | .physical pa e =>
    if s.installed pa then
      let s' := s.mark .write e
      .ok () { s' with mem := s'.mem.store pa datum }
    else .refused .beyondPhysWords
  | .fault c t vpn => .abandoned (s.mmuFault .write c t vpn)

/-- `MemRead(addr, apt)`. -/
def State.memRead (s : State) (addr : Word) (apt : Bool) : Access Word :=
  s.readAt .read (s.locate .read addr apt)

/-- The interface `MemFetch(address, useAlternateTable)` (00_scope.md R4(c)): kind fetch, the table as the
caller asks. -/
def State.memFetchFrom (s : State) (addr : Word) (apt : Bool) : Access Word :=
  s.readAt .fetch (s.locate .fetch addr apt)

/-- The primitive `MemFetch(addr)` of 00_scope.md R7, with which the CPU fetches an instruction: it never asks
for the alternate table (R53). -/
def State.memFetch (s : State) (addr : Word) : Access Word := s.memFetchFrom addr false

/-- `MemWrite(addr, apt, v)`. -/
def State.memWrite (s : State) (addr : Word) (apt : Bool) (v : Word) : Access Unit :=
  s.writeAt (.word v) (s.locate .write addr apt)

/-- `MemWriteByte(addr, apt, sel, b)`: `sel` false writes bits 15:8, true bits 7:0 (R58). -/
def State.memWriteByte (s : State) (addr : Word) (apt sel : Bool) (v : Byte) : Access Unit :=
  s.writeAt (.byte sel v) (s.locate .write addr apt)

/-- Reads one word after another and gives the list of values; the accesses of a register block. -/
def State.memReadList (s : State) (apt : Bool) : List Word → Access (List Word)
  | [] => .ok [] s
  | addr :: rest =>
    (s.memRead addr apt).bind fun v s =>
      (s.memReadList apt rest).bind fun vs s => .ok (v :: vs) s

/-- Writes one word after another. -/
def State.memWriteList (s : State) (apt : Bool) : List (Word × Word) → Access Unit
  | [] => .ok () s
  | (addr, v) :: rest => (s.memWrite addr apt v).bind fun _ s => s.memWriteList apt rest

/-- An illegal instruction: the cause raised, P unchanged (60_exceptions.md R321, 46_system.md R291). -/
def State.illegalInstruction (s : State) : State := s.raiseCause .illegalInstruction

end Sys2Proof.Machine
end

