-- ==== Sys2Proof/Machine/Flags.lean ====
section
/-! DEFINITION. The flags of 10_state.md R14 and every flag computation: the adder (42_register_ops.md
R150), multiply (44_muldiv_byte.md R200, R201), the shift link M (43_shift.md R190), the error flag Z
(45_float.md R228) and the bit accumulator K (R170). -/

namespace Sys2Proof.Machine

/-- The flags of a level (R14). -/
inductive Flag where
  | ptm | tg | k | z | q | o | c | m
deriving DecidableEq, Repr

/-- The bit number of a flag in the low byte of STS (R14). -/
def Flag.bit : Flag → Nat
  | .ptm => 0
  | .tg => 1
  | .k => 2
  | .z => 3
  | .q => 4
  | .o => 5
  | .c => 6
  | .m => 7

/-- A flag of a flags byte. -/
def flagOf (f : BitVec 8) (g : Flag) : Bool := f.getLsbD g.bit

/-- A flags byte with one flag written. -/
def withFlag (f : BitVec 8) (g : Flag) (v : Bool) : BitVec 8 := setBitTo f g.bit v

/-- A flag of the current level. -/
def State.flag (s : State) (g : Flag) : Bool := flagOf s.curFlags g

/-- Writes a flag of the current level. -/
def State.setFlag (s : State) (g : Flag) (v : Bool) : State :=
  s.setCurFlags (withFlag s.curFlags g v)

/-- Sets Q to an overflow and keeps O unless there is one (R150, R200, R201). -/
def overflowFlags (f : BitVec 8) (overflow : Bool) : BitVec 8 :=
  withFlag (withFlag f .q overflow) .o (flagOf f .o || overflow)

/-! ### The adder (R150) -/

/-- The 17-bit sum. -/
def wideSum (a b : Word) (cin : Bool) : BitVec 17 :=
  a.zeroExtend 17 + b.zeroExtend 17 + (BitVec.ofBool cin).zeroExtend 17

/-- The 16-bit sum. -/
def addSum (a b : Word) (cin : Bool) : Word := (wideSum a b cin).extractLsb' 0 16

/-- The carry out, bit 16 of the wide sum. -/
def addCarry (a b : Word) (cin : Bool) : Bool := (wideSum a b cin).getLsbD 16

/-- Overflow: both operands share bit 15 and the sum's differs. -/
def addOverflow (a b : Word) (cin : Bool) : Bool :=
  a.getLsbD 15 == b.getLsbD 15 && (addSum a b cin).getLsbD 15 != a.getLsbD 15

/-- The flags after an addition: C and Q written, O only set. -/
def addFlags (f : BitVec 8) (a b : Word) (cin : Bool) : BitVec 8 :=
  overflowFlags (withFlag f .c (addCarry a b cin)) (addOverflow a b cin)

/-- The flags effect of `add(a, b, cin)` on the current level. -/
def State.addFlags (s : State) (a b : Word) (cin : Bool) : State :=
  s.setCurFlags (Sys2Proof.Machine.addFlags s.curFlags a b cin)

/-- `r <- add(r, b, cin)` for a register of the current level. -/
def State.addTo (s : State) (r : Reg) (b : Word) (cin : Bool) : State :=
  (s.addFlags (s.cur r) b cin).setCur r (addSum (s.cur r) b cin)

/-! ### Multiply -/

/-- The overflow of the word multiply: magnitude above 32767 (R200). -/
def mpyOverflow (p : Int) : Bool := decide (p.natAbs > 32767)

/-- The overflow of the register multiply, as the document states it (R201; never true, C10). -/
def rmpyOverflow (p : Int) : Bool := decide (p > 2 ^ 31 - 1) || decide (p < -2 ^ 31)

/-- Q and O of the current level after a multiply. -/
def State.overflowFlags (s : State) (overflow : Bool) : State :=
  s.setCurFlags (Sys2Proof.Machine.overflowFlags s.curFlags overflow)

/-! ### The skip conditions (41_control_transfer.md R140 to R148) -/

/-- `d + ~s + 1` on 17 bits. -/
def wideDiff (d s : Word) : BitVec 17 := wideSum d (~~~s) true

/-- The 16-bit difference `r`. -/
def skipDiff (d s : Word) : Word := (wideDiff d s).extractLsb' 0 16

/-- The carry `cy`. -/
def skipCarry (d s : Word) : Bool := (wideDiff d s).getLsbD 16

/-- The true signed overflow `ov` of `d - s`. -/
def skipOverflow (d s : Word) : Bool :=
  d.getLsbD 15 != s.getLsbD 15 && (skipDiff d s).getLsbD 15 != d.getLsbD 15

/-! ### Float status -/

/-- `Z <- 1` if a condition is reported; never cleared (45_float.md R228). -/
def State.reportZ (s : State) (condition : Bool) : State :=
  if condition then s.setFlag .z true else s

end Sys2Proof.Machine
end

