-- ==== Sys2Proof/Machine/Operands.lean ====
section
/-! DEFINITION. Every operand form: the Effective-Address Unit (40_memory_reference.md R100), register
fields (30_encoding.md R84, 42_register_ops.md R151), the bit operand (R170), the displacement of a
conditional jump, and the physical addresses of 46_system.md section 6. -/

namespace Sys2Proof.Machine

/-! ### Effective addresses (R100, R101) -/

/-- The address an address mode starts from: of the operand, or of the pointer word. -/
def State.baseAddress (s : State) (mode : Mode) (disp : BitVec 8) : Word :=
  match mode with
  | .pRel | .indP | .indPX => s.cur .p + sext8 disp
  | .bRel | .indB | .indBX => s.cur .b + sext8 disp
  | .xIdx => s.cur .x + sext8 disp
  | .bxIdx => s.cur .b + sext8 disp + s.cur .x

/-- `EA(w)`: the address and whether its access asks for the alternate table. Indirect modes read one
word, which can fault (R102). -/
def State.effectiveAddress (s : State) (mode : Mode) (disp : BitVec 8) : Access (Word × Bool) :=
  let base := s.baseAddress mode disp
  match mode with
  | .pRel => .ok (base, false) s
  | .bRel | .xIdx | .bxIdx => .ok (base, true) s
  | .indP => (s.memRead base false).bind fun ptr s => .ok (ptr, true) s
  | .indB => (s.memRead base true).bind fun ptr s => .ok (ptr, true) s
  | .indPX => (s.memRead base false).bind fun ptr s => .ok (ptr + s.cur .x, true) s
  | .indBX => (s.memRead base true).bind fun ptr s => .ok (ptr + s.cur .x, true) s

/-- The operand word of a memory-reference instruction. -/
def State.readOperand (s : State) (mode : Mode) (disp : BitVec 8) : Access Word :=
  (s.effectiveAddress mode disp).bind fun ea s => s.memRead ea.1 ea.2

/-- Stores a word at the effective address. -/
def State.writeOperand (s : State) (mode : Mode) (disp : BitVec 8) (v : Word) : Access Unit :=
  (s.effectiveAddress mode disp).bind fun ea s => s.memWrite ea.1 ea.2 v

/-- `P + d`, the target of a conditional jump (41_control_transfer.md section 2). -/
def State.relativeTarget (s : State) (disp : BitVec 8) : Word := s.cur .p + sext8 disp

/-- A jump to `P + d` if the condition holds, else `next`. -/
def State.jumpIf (s : State) (c : Bool) (disp : BitVec 8) : State :=
  if c then s.jump (s.relativeTarget disp) else s.next

/-! ### Register fields (30_encoding.md R84) -/

/-- The value of a register field: code 0 is the constant 0; P reads as the instruction's address. -/
def State.fieldValue (s : State) : RegField → Word
  | none => 0
  | some r => s.cur r

/-- The source of a register operation (42_register_ops.md R151). -/
def State.roSource (s : State) (cm1 : Bool) (sr : RegField) : Word :=
  if cm1 then ~~~(s.fieldValue sr) else s.fieldValue sr

/-- The destination operand of a register operation (R151). -/
def State.roDest (s : State) (cld : Bool) (dr : RegField) : Word :=
  if cld then 0 else s.fieldValue dr

/-- Writes the result of a register operation and ends it: P as destination is a jump, code 0
discards (R151). -/
def State.roFinish (s : State) (dr : RegField) (v : Word) : State :=
  match dr with
  | none => s.next
  | some .p => s.jump v
  | some r => (s.setCur r v).next

/-! ### The bit operand (42_register_ops.md R170) -/

/-- The register a bit instruction works on: code 0 is STS. -/
def State.bitRegister (s : State) : RegField → Word
  | none => s.sts s.pil
  | some r => s.cur r

/-- The operand bit. -/
def State.readBit (s : State) (bn : Nat) (dr : RegField) : Bool := (s.bitRegister dr).getLsbD bn

/-- Writes the operand bit: of FLAGS[L] when the field is 0 and the bit is one of 7:0, nothing for a
bit of 15:8 of STS (R170). -/
def State.writeBit (s : State) (bn : Nat) (dr : RegField) (v : Bool) : State :=
  match dr with
  | none => if bn ≤ 7 then s.setCurFlags (setBitTo s.curFlags bn v) else s
  | some r => s.setCur r (setBitTo (s.cur r) bn v)

/-- The end of a bit instruction that writes its operand: a written P is a jump already (R170). -/
def State.bitFinish (s : State) (dr : RegField) : State := if dr = some .p then s else s.next

/-! ### Physical addresses (46_system.md section 6) -/

/-- `(A[7:0] << 16) | D` of EXAM and DEPO (R277, R278). -/
def State.panelAddress (s : State) : PhysAddr := (s.cur .a).extractLsb' 0 8 ++ s.cur .d

/-- `((T[7:0] << 16) | X) + delta` modulo 2^24 of the TX instructions (R279). -/
def State.txAddress (s : State) (delta : BitVec 3) : PhysAddr :=
  ((s.cur .t).extractLsb' 0 8 ++ s.cur .x) + delta.zeroExtend 24

/-- The address and values of the register block of LRB and SRB (46_system.md R273, R274): eight
consecutive words from X. -/
def State.blockAddresses (s : State) : List Word :=
  [s.cur .x, s.cur .x + 1, s.cur .x + 2, s.cur .x + 3, s.cur .x + 4, s.cur .x + 5, s.cur .x + 6,
    s.cur .x + 7]

end Sys2Proof.Machine
end

