-- ==== Sys2Proof/Machine/BitInstructions.lean ====
section
/-! DEFINITION. The bit instructions of spec/42_register_ops.md, R170 to R186. -/

namespace Sys2Proof.Machine

/-- Writes the operand bit and ends the instruction. -/
def writeBitAndEnd (bn : Nat) (dr : RegField) (v : Bool) (s : State) : Result :=
  .next ((s.writeBit bn dr v).bitFinish dr)

/-- Writes the operand bit, then K, and ends the instruction. -/
def writeBitThenK (bn : Nat) (dr : RegField) (v k : Bool) (s : State) : Result :=
  .next (((s.writeBit bn dr v).setFlag .k k).bitFinish dr)

/-- Writes K and ends the instruction. -/
def writeK (v : Bool) (s : State) : Result := .next (s.setFlag .k v).next

/-- BSET ZRO (R171). -/
def execBsetZro (bn : Nat) (dr : RegField) (s : State) : Result := writeBitAndEnd bn dr false s

/-- BSET ONE (R172). -/
def execBsetOne (bn : Nat) (dr : RegField) (s : State) : Result := writeBitAndEnd bn dr true s

/-- BSET BCM (R173). -/
def execBsetBcm (bn : Nat) (dr : RegField) (s : State) : Result :=
  writeBitAndEnd bn dr (!s.readBit bn dr) s

/-- BSET BAC (R174). -/
def execBsetBac (bn : Nat) (dr : RegField) (s : State) : Result :=
  writeBitAndEnd bn dr (s.flag .k) s

/-- BSKP ZRO (R175). -/
def execBskpZro (bn : Nat) (dr : RegField) (s : State) : Result :=
  .next (s.skipIf (!s.readBit bn dr))

/-- BSKP ONE (R176). -/
def execBskpOne (bn : Nat) (dr : RegField) (s : State) : Result := .next (s.skipIf (s.readBit bn dr))

/-- BSKP BCM (R177). -/
def execBskpBcm (bn : Nat) (dr : RegField) (s : State) : Result :=
  .next (s.skipIf (s.readBit bn dr != s.flag .k))

/-- BSKP BAC (R178). -/
def execBskpBac (bn : Nat) (dr : RegField) (s : State) : Result :=
  .next (s.skipIf (s.readBit bn dr == s.flag .k))

/-- BSTC (R179). -/
def execBstc (bn : Nat) (dr : RegField) (s : State) : Result :=
  writeBitThenK bn dr (!s.flag .k) true s

/-- BSTA (R180). -/
def execBsta (bn : Nat) (dr : RegField) (s : State) : Result :=
  writeBitThenK bn dr (s.flag .k) false s

/-- BLDC (R181). -/
def execBldc (bn : Nat) (dr : RegField) (s : State) : Result := writeK (!s.readBit bn dr) s

/-- BLDA (R182). -/
def execBlda (bn : Nat) (dr : RegField) (s : State) : Result := writeK (s.readBit bn dr) s

/-- BANC (R183). -/
def execBanc (bn : Nat) (dr : RegField) (s : State) : Result :=
  writeK (s.flag .k && !s.readBit bn dr) s

/-- BAND (R184). -/
def execBand (bn : Nat) (dr : RegField) (s : State) : Result :=
  writeK (s.flag .k && s.readBit bn dr) s

/-- BORC (R185). -/
def execBorc (bn : Nat) (dr : RegField) (s : State) : Result :=
  writeK (s.flag .k || !s.readBit bn dr) s

/-- BORA (R186). -/
def execBora (bn : Nat) (dr : RegField) (s : State) : Result :=
  writeK (s.flag .k || s.readBit bn dr) s

end Sys2Proof.Machine
end

