-- ==== Sys2Proof/Machine/ControlTransfer.lean ====
section
/-! DEFINITION. The jumps, conditional jumps and skips of spec/41_control_transfer.md, R130 to R148. EXR
(R149) stands in ExecuteRegister.lean. -/

namespace Sys2Proof.Machine

/-- JMP (R130). -/
def execJmp (mode : Mode) (disp : BitVec 8) (s : State) : Result :=
  (s.effectiveAddress mode disp).andThen fun ea s => .next (s.jump ea.1)

/-- JPL (R131): L receives the address after the JPL, once the effective address is known. -/
def execJpl (mode : Mode) (disp : BitVec 8) (s : State) : Result :=
  (s.effectiveAddress mode disp).andThen fun ea s =>
    .next ((s.setCur .l (s.cur .p + 1)).jump ea.1)

/-- JAP (R132). -/
def execJap (disp : BitVec 8) (s : State) : Result :=
  .next (s.jumpIf (!(s.cur .a).getLsbD 15) disp)

/-- JAN (R133). -/
def execJan (disp : BitVec 8) (s : State) : Result :=
  .next (s.jumpIf ((s.cur .a).getLsbD 15) disp)

/-- JAZ (R134). -/
def execJaz (disp : BitVec 8) (s : State) : Result := .next (s.jumpIf (s.cur .a == 0) disp)

/-- JAF (R135). -/
def execJaf (disp : BitVec 8) (s : State) : Result := .next (s.jumpIf (s.cur .a != 0) disp)

/-- X incremented, before the test of JPC and JNC (R136, R137). -/
def State.countX (s : State) : State := s.setCur .x (s.cur .x + 1)

/-- JPC (R136): the test is on the incremented X. -/
def execJpc (disp : BitVec 8) (s : State) : Result :=
  .next (s.countX.jumpIf (!(s.countX.cur .x).getLsbD 15) disp)

/-- JNC (R137): the test is on the incremented X. -/
def execJnc (disp : BitVec 8) (s : State) : Result :=
  .next (s.countX.jumpIf ((s.countX.cur .x).getLsbD 15) disp)

/-- JXZ (R138). -/
def execJxz (disp : BitVec 8) (s : State) : Result := .next (s.jumpIf (s.cur .x == 0) disp)

/-- JXN (R139). -/
def execJxn (disp : BitVec 8) (s : State) : Result :=
  .next (s.jumpIf ((s.cur .x).getLsbD 15) disp)

/-- A skip on a condition of the two operands `d` and `s` of R140. -/
def skipOn (cond : (d s : Word) → Bool) (sr dr : RegField) (s : State) : Result :=
  .next (s.skipIf (cond (s.fieldValue dr) (s.fieldValue sr)))

/-- SKP EQL (R141). -/
def execSkpEql (sr dr : RegField) (s : State) : Result := skipOn (fun d s => skipDiff d s == 0) sr dr s

/-- SKP GEQ (R142): the sign of the wrapped difference. -/
def execSkpGeq (sr dr : RegField) (s : State) : Result :=
  skipOn (fun d s => !(skipDiff d s).getLsbD 15) sr dr s

/-- SKP GRE (R143): signed greater or equal. -/
def execSkpGre (sr dr : RegField) (s : State) : Result :=
  skipOn (fun d s => !((skipDiff d s).getLsbD 15 ^^ skipOverflow d s)) sr dr s

/-- SKP MGRE (R144): unsigned greater or equal. -/
def execSkpMgre (sr dr : RegField) (s : State) : Result := skipOn skipCarry sr dr s

/-- SKP UEQ (R145). -/
def execSkpUeq (sr dr : RegField) (s : State) : Result := skipOn (fun d s => skipDiff d s != 0) sr dr s

/-- SKP LSS (R146): the sign of the wrapped difference. -/
def execSkpLss (sr dr : RegField) (s : State) : Result :=
  skipOn (fun d s => (skipDiff d s).getLsbD 15) sr dr s

/-- SKP LST (R147): signed less. -/
def execSkpLst (sr dr : RegField) (s : State) : Result :=
  skipOn (fun d s => (skipDiff d s).getLsbD 15 ^^ skipOverflow d s) sr dr s

/-- SKP MLST (R148): unsigned less. -/
def execSkpMlst (sr dr : RegField) (s : State) : Result := skipOn (fun d s => !skipCarry d s) sr dr s

end Sys2Proof.Machine
end

