-- ==== Sys2Proof/Machine/Float.lean ====
section
/-! DEFINITION. The 48-bit float format, the float engine and the float instructions of
spec/45_float.md, R220 to R235. -/

namespace Sys2Proof.Machine

/-- A float: sign, exponent field biased by 16384, mantissa (R220). -/
structure Flt where
  sign : Bool
  exp : BitVec 15
  man : BitVec 32
deriving DecidableEq, Repr

/-- What an operation reports (R226). -/
inductive FloatReport where
  | exact | overflow | underflow
deriving DecidableEq, Repr

/-- `unpack(W0, W1, W2)` (R223). -/
def unpack (w0 w1 w2 : Word) : Flt :=
  { sign := w0.getLsbD 15, exp := w0.extractLsb' 0 15, man := w1 ++ w2 }

/-- `W0` of `pack` (R223). -/
def Flt.word0 (f : Flt) : Word := BitVec.ofBool f.sign ++ f.exp

/-- `W1` of `pack`. -/
def Flt.word1 (f : Flt) : Word := f.man.extractLsb' 16 16

/-- `W2` of `pack`. -/
def Flt.word2 (f : Flt) : Word := f.man.extractLsb' 0 16

/-- Standardized zero (R222). -/
def Flt.zero : Flt := { sign := false, exp := 0, man := 0 }

/-- `range(s, e, m)` (R226). -/
def floatRange (sign : Bool) (e : Int) (m : BitVec 32) : Flt × FloatReport :=
  if e > 32767 then ({ sign := sign, exp := 32767, man := 0xFFFFFFFF }, .overflow)
  else if e < 0 then ({ sign := sign, exp := 0, man := 0 }, .underflow)
  else ({ sign := sign, exp := BitVec.ofInt 15 e, man := m }, .exact)

/-- The loop of `normalize` and of `fmul`: shift left until the top bit is 1, at most `fuel` times. -/
def alignTop {w : Nat} : Nat → Int → BitVec w → Int × BitVec w
  | 0, e, m => (e, m)
  | fuel + 1, e, m => if m.getLsbD (w - 1) then (e, m) else alignTop fuel (e - 1) (m <<< 1)

/-- `normalize(s, e, m)` (R225). -/
def normalize (sign : Bool) (e : Int) (m : BitVec 32) : Flt × FloatReport :=
  if m = 0 then (Flt.zero, .exact)
  else
    let r := alignTop 31 e m
    floatRange sign r.1 r.2

/-- Whether `(ea, ma) >= (eb, mb)` in lexicographic order (R224). -/
def Flt.atLeast (a b : Flt) : Bool :=
  decide (b.exp < a.exp) || (a.exp == b.exp && decide (b.man ≤ a.man))

/-- The smaller operand's mantissa aligned by `delta` (R224). -/
def alignedMantissa (small : Flt) (delta : Nat) : BitVec 32 :=
  if delta ≥ 32 then 0 else small.man >>> delta

/-- Whether the alignment shifted out a 1 (R224). -/
def stickyBit (small : Flt) (delta : Nat) : Bool :=
  if delta ≥ 32 then true else decide (small.man.toNat % 2 ^ delta ≠ 0)

/-- The addition of two non-zero floats, the larger first (R224). For operands that are not normalized the
difference of the mantissas can be negative; the algorithm is total on them (R223) and hands `normalize` a
32-bit value (R225): the difference modulo 2^32. DEDUCED, log 12. -/
def addAligned (big small : Flt) : Flt × FloatReport :=
  let delta := big.exp.toNat - small.exp.toNat
  let sm := alignedMantissa small delta
  let sticky := stickyBit small delta
  let e : Int := big.exp.toNat
  if big.sign = small.sign then
    let t : BitVec 33 :=
      (big.man.zeroExtend 33 + sm.zeroExtend 33) ||| (BitVec.ofBool sticky).zeroExtend 33
    if t.getLsbD 32 then normalize big.sign (e + 1) ((t >>> 1).extractLsb' 0 32)
    else normalize big.sign e (t.extractLsb' 0 32)
  else normalize big.sign e ((big.man - sm) ||| (BitVec.ofBool sticky).zeroExtend 32)

/-- `fadd(a, b)` (R224). -/
def fadd (a b : Flt) : Flt × FloatReport :=
  if b.man = 0 then (if a.man = 0 then Flt.zero else a, .exact)
  else if a.man = 0 then (b, .exact)
  else if a.atLeast b then addAligned a b
  else addAligned b a

/-- The second operand of FSB with its sign inverted, unless it is zero (R231). -/
def Flt.negate (b : Flt) : Flt := if b.man = 0 then b else { b with sign := !b.sign }

/-- `fmul(a, b)` (R227): the exact product, its top 32 bits. -/
def fmul (a b : Flt) : Flt × FloatReport :=
  if a.man = 0 ∨ b.man = 0 then (Flt.zero, .exact)
  else
    let r := alignTop 63 ((a.exp.toNat : Int) + b.exp.toNat - 16384)
      (a.man.zeroExtend 64 * b.man.zeroExtend 64)
    floatRange (a.sign ^^ b.sign) r.1 (r.2.extractLsb' 32 32)

/-- The least `k` with `2^31 * d <= n * 2^k`, counted on from `k`, at most `fuel` further: the `k` of
`fdiv` (R227). -/
def quotientScale : Nat → Nat → (n d : Nat) → Nat
  | 0, k, _, _ => k
  | fuel + 1, k, n, d => if 2 ^ 31 * d ≤ n * 2 ^ k then k else quotientScale fuel (k + 1) n d

/-- `fdiv(a, b)` for a divisor that is not zero (R227): the exact quotient truncated to 32 bits. -/
def fdiv (a b : Flt) : Flt × FloatReport :=
  if a.man = 0 then (Flt.zero, .exact)
  else
    let k := quotientScale 64 0 a.man.toNat b.man.toNat
    let m := a.man.toNat * 2 ^ k / b.man.toNat
    floatRange (a.sign ^^ b.sign) ((a.exp.toNat : Int) - b.exp.toNat + 16384 + (32 - k))
      (BitVec.ofNat 32 m)

/-! ### The float accumulator T, A, D (R221) -/

/-- The accumulator as a float. -/
def State.floatAccumulator (s : State) : Flt := unpack (s.cur .t) (s.cur .a) (s.cur .d)

/-- `(T, A, D) <- pack(f)`. -/
def State.setFloatAccumulator (s : State) (f : Flt) : State :=
  ((s.setCur .t f.word0).setCur .a f.word1).setCur .d f.word2

/-- The result of a float instruction: the accumulator, and Z if a condition was reported (R228). -/
def State.floatResult (s : State) (r : Flt × FloatReport) : State :=
  (s.setFloatAccumulator r.1).reportZ (r.2 != .exact)

/-- The float operand: three reads, in order, before any register is written (section 3). -/
def State.readFloat (s : State) (mode : Mode) (disp : BitVec 8) : Access Flt :=
  (s.effectiveAddress mode disp).bind fun ea s =>
    (s.memRead ea.1 ea.2).bind fun w0 s =>
      (s.memRead (ea.1 + 1) ea.2).bind fun w1 s =>
        (s.memRead (ea.1 + 2) ea.2).bind fun w2 s => .ok (unpack w0 w1 w2) s

/-- FAD (R230). -/
def execFad (mode : Mode) (disp : BitVec 8) (s : State) : Result :=
  (s.readFloat mode disp).andThen fun b s =>
    .next (s.floatResult (fadd s.floatAccumulator b)).next

/-- FSB (R231). -/
def execFsb (mode : Mode) (disp : BitVec 8) (s : State) : Result :=
  (s.readFloat mode disp).andThen fun b s =>
    .next (s.floatResult (fadd s.floatAccumulator b.negate)).next

/-- FMU (R232). -/
def execFmu (mode : Mode) (disp : BitVec 8) (s : State) : Result :=
  (s.readFloat mode disp).andThen fun b s =>
    .next (s.floatResult (fmul s.floatAccumulator b)).next

/-- FDV (R233): a zero divisor sets Z and leaves the accumulator. -/
def execFdv (mode : Mode) (disp : BitVec 8) (s : State) : Result :=
  (s.readFloat mode disp).andThen fun b s =>
    if b.man = 0 then .next (s.setFlag .z true).next
    else .next (s.floatResult (fdiv s.floatAccumulator b)).next

/-- The float that NLZ makes of the integer in A with scaling factor `sc` (R234). -/
def nlzValue (a : Word) (sc : Int) : Flt :=
  if a = 0 then Flt.zero
  else (normalize (a.getLsbD 15) (16384 + sc) (BitVec.ofNat 32 (a.toInt.natAbs * 2 ^ 16))).1

/-- NLZ (R234): no flag is written. -/
def execNlz (scale : Int) (s : State) : Result :=
  .next (s.setFloatAccumulator (nlzValue (s.cur .a) scale)).next

/-- The magnitude of a float times `2^(sc + 16)`, truncated (R235). -/
def dnzMagnitude (f : Flt) (sc : Int) : Nat :=
  let k : Int := 16 - (((f.exp.toNat : Int) - 16384) + sc)
  if 0 ≤ k then f.man.toNat / 2 ^ k.toNat else f.man.toNat * 2 ^ (-k).toNat

/-- DNZ (R235): A gets the low 16 bits, T and D become 0, Z reports a magnitude above 32767. -/
def execDnz (scale : Int) (s : State) : Result :=
  let f := s.floatAccumulator
  let mag := if f.man = 0 then 0 else dnzMagnitude f scale
  let r : Word := if f.sign then BitVec.ofInt 16 (-(mag : Int)) else BitVec.ofNat 16 mag
  .next ((((s.reportZ (decide (mag > 32767))).setCur .a r).setCur .t 0).setCur .d 0).next

end Sys2Proof.Machine
end

