-- ==== Sys2Proof/Machine/InputOutput.lean ====
section
/-! DEFINITION. Input and output and the physical memory instructions of spec/46_system.md, R275 to
R284. All are privileged. -/

namespace Sys2Proof.Machine

/-- One call of `IoOp` (R275): the new A, the IOX error if no device answered. The answer is the free
value of log 6; each call takes a new one. -/
def ioCall (address : Word) (s : State) : Result :=
  let answer := Config.ioOp s.ioCount address (s.cur .a)
  let t := { s with ioCount := s.ioCount + 1 }.setCur .a answer.1
  let e := t.raiseCause .ioxError
  .next
    { t with
      iid := if answer.2 then t.iid else e.iid
      pid := if answer.2 then t.pid else e.pid }.next

/-- IOX (R275). -/
def execIox (dev : BitVec 11) (s : State) : Result :=
  privileged s fun s => ioCall (dev.zeroExtend 16) s

/-- IOXT (R276): the address is all of T. -/
def execIoxt (s : State) : Result := privileged s fun s => ioCall (s.cur .t) s

/-- A register loaded from physical memory. -/
def physLoad (r : Reg) (pa : PhysAddr) (s : State) : Result :=
  (s.physRead pa).andThen fun v s => .next (s.setCur r v).next

/-- A word stored to physical memory. -/
def physStore (pa : PhysAddr) (v : Word) (s : State) : Result :=
  (s.physWrite pa v).andThen fun _ s => .next s.next

/-- EXAM (R277). -/
def execExam (s : State) : Result := privileged s fun s => physLoad .t s.panelAddress s

/-- DEPO (R278). -/
def execDepo (s : State) : Result := privileged s fun s => physStore s.panelAddress (s.cur .t) s

/-- LDATX (R279). -/
def execLdatx (delta : BitVec 3) (s : State) : Result :=
  privileged s fun s => physLoad .a (s.txAddress delta) s

/-- LDXTX (R280). -/
def execLdxtx (delta : BitVec 3) (s : State) : Result :=
  privileged s fun s => physLoad .x (s.txAddress delta) s

/-- LDDTX (R281): A, then D from the next word. -/
def execLddtx (delta : BitVec 3) (s : State) : Result :=
  privileged s fun s =>
    let pa := s.txAddress delta
    (s.physRead pa).andThen fun v s =>
      (s.physRead (pa + 1)).andThen fun w s => .next ((s.setCur .a v).setCur .d w).next

/-- STATX (R282). -/
def execStatx (delta : BitVec 3) (s : State) : Result :=
  privileged s fun s => physStore (s.txAddress delta) (s.cur .a) s

/-- STZTX (R283). -/
def execStztx (delta : BitVec 3) (s : State) : Result :=
  privileged s fun s => physStore (s.txAddress delta) 0 s

/-- STDTX (R284): A, then D to the next word. -/
def execStdtx (delta : BitVec 3) (s : State) : Result :=
  privileged s fun s =>
    let pa := s.txAddress delta
    (s.physWrite pa (s.cur .a)).andThen fun _ s =>
      (s.physWrite (pa + 1) (s.cur .d)).andThen fun _ s => .next s.next

end Sys2Proof.Machine
end

