-- ==== Sys2Proof/Machine/Interrupts.lean ====
section
/-! DEFINITION. WAIT, MON, IDENT and the access to other levels' registers of spec/46_system.md, R268 to
R274. -/

namespace Sys2Proof.Machine

/-- WAIT (R268): give up the level, or stop when the interrupt system is off. -/
def execWait (s : State) : Result :=
  privileged s fun s =>
    .next (if s.ioni then s.giveUp else { s with runMode := .stop }).next

/-- MON (R269), not privileged: the monitor-call cause, the call number to T of level 14. -/
def execMon (n : BitVec 8) (s : State) : Result :=
  .next ((s.raiseCause .monitorCall).setReg 14 .t (sext8 n)).next

/-- The oldest entry of a level in the ident chain, and the chain without it (R270). -/
def takeIdent (level : Level) : List IdentEntry → Option (IdentEntry × List IdentEntry)
  | [] => none
  | e :: rest =>
    if e.level = level then some (e, rest)
    else (takeIdent level rest).map fun r => (r.1, e :: r.2)

/-- IDENT for a level (R270): the code of the oldest entry to A, or the IOX error. -/
def identLevel (level : Level) (s : State) : Result :=
  privileged s fun s =>
    match takeIdent level s.identChain with
    | some (e, rest) => .next ({ s with identChain := rest }.setCur .a e.code).next
    | none => .next (s.raiseCause .ioxError).next

/-- IDENT PL10 (R270). -/
def execIdentPL10 (s : State) : Result := identLevel 10 s

/-- IDENT PL11 (R270). -/
def execIdentPL11 (s : State) : Result := identLevel 11 s

/-- IDENT PL12 (R270). -/
def execIdentPL12 (s : State) : Result := identLevel 12 s

/-- IDENT PL13 (R270). -/
def execIdentPL13 (s : State) : Result := identLevel 13 s

/-- IRR (R271): field 0 is STS as that level reads it. -/
def execIrr (level : Level) (reg : RegField) (s : State) : Result :=
  privileged s fun s =>
    .next
      (s.setCur .a
        (match reg with
          | none => s.sts level
          | some r => s.reg level r)).next

/-- IRW (R272): field 0 is FLAGS of the level; the current level's own P is not written. -/
def execIrw (level : Level) (reg : RegField) (s : State) : Result :=
  privileged s fun s =>
    .next
      (match reg with
        | none => s.setFlags level ((s.cur .a).extractLsb' 0 8)
        | some r => if r = Reg.p ∧ level = s.pil then s else s.setReg level r (s.cur .a)).next

/-- The registers of a block loaded in the order P, X, T, A, D, L, STS, B; P is left alone for the
current level (R273). -/
def State.loadBlock (s : State) (level : Level) : List Word → State
  | [p, x, t, a, d, l, sts, b] =>
    let s := if level = s.pil then s else s.setReg level .p p
    let s := ((s.setReg level .x x).setReg level .t t).setReg level .a a
    let s := ((s.setReg level .d d).setReg level .l l).setFlags level (sts.extractLsb' 0 8)
    s.setReg level .b b
  | _ => s

/-- LRB (R273): all eight reads before any write. -/
def execLrb (level : Level) (s : State) : Result :=
  privileged s fun s =>
    (s.memReadList true s.blockAddresses).andThen fun vs s => .next (s.loadBlock level vs).next

/-- The values SRB stores, in the order P, X, T, A, D, L, STS, B; for the current level P is the address
after the SRB (R274). -/
def State.blockValues (s : State) (level : Level) : List Word :=
  [if level = s.pil then s.cur .p + 1 else s.reg level .p, s.reg level .x, s.reg level .t,
    s.reg level .a, s.reg level .d, s.reg level .l, s.sts level, s.reg level .b]

/-- SRB (R274): the earlier writes stay if a later one faults. -/
def execSrb (level : Level) (s : State) : Result :=
  privileged s fun s =>
    (s.memWriteList true (s.blockAddresses.zip (s.blockValues level))).andThen fun _ s =>
      .next s.next

end Sys2Proof.Machine
end

