-- ==== Sys2Proof/Machine/MemoryReference.lean ====
section
/-! DEFINITION. The memory-reference instructions of spec/40_memory_reference.md, R104 to R119. -/

namespace Sys2Proof.Machine

/-- A store of one word. -/
def storeOperand (mode : Mode) (disp : BitVec 8) (v : Word) (s : State) : Result :=
  (s.writeOperand mode disp v).andThen fun _ s => .next s.next

/-- A load of one word into a register. -/
def loadOperand (r : Reg) (mode : Mode) (disp : BitVec 8) (s : State) : Result :=
  (s.readOperand mode disp).andThen fun v s => .next (s.setCur r v).next

/-- STZ (R104). -/
def execStz (mode : Mode) (disp : BitVec 8) (s : State) : Result := storeOperand mode disp 0 s

/-- STA (R105). -/
def execSta (mode : Mode) (disp : BitVec 8) (s : State) : Result :=
  storeOperand mode disp (s.cur .a) s

/-- STT (R106). -/
def execStt (mode : Mode) (disp : BitVec 8) (s : State) : Result :=
  storeOperand mode disp (s.cur .t) s

/-- STX (R107). -/
def execStx (mode : Mode) (disp : BitVec 8) (s : State) : Result :=
  storeOperand mode disp (s.cur .x) s

/-- LDA (R108). -/
def execLda (mode : Mode) (disp : BitVec 8) (s : State) : Result := loadOperand .a mode disp s

/-- LDT (R109). -/
def execLdt (mode : Mode) (disp : BitVec 8) (s : State) : Result := loadOperand .t mode disp s

/-- LDX (R110). -/
def execLdx (mode : Mode) (disp : BitVec 8) (s : State) : Result := loadOperand .x mode disp s

/-- ADD (R111). -/
def execAdd (mode : Mode) (disp : BitVec 8) (s : State) : Result :=
  (s.readOperand mode disp).andThen fun m s => .next (s.addTo .a m false).next

/-- SUB (R112): the one's complement plus carry. -/
def execSub (mode : Mode) (disp : BitVec 8) (s : State) : Result :=
  (s.readOperand mode disp).andThen fun m s => .next (s.addTo .a (~~~m) true).next

/-- AND (R113). -/
def execAnd (mode : Mode) (disp : BitVec 8) (s : State) : Result :=
  (s.readOperand mode disp).andThen fun m s => .next (s.setCur .a (s.cur .a &&& m)).next

/-- ORA (R114). -/
def execOra (mode : Mode) (disp : BitVec 8) (s : State) : Result :=
  (s.readOperand mode disp).andThen fun m s => .next (s.setCur .a (s.cur .a ||| m)).next

/-- MIN (R115): increment a memory word and skip if it became zero. -/
def execMin (mode : Mode) (disp : BitVec 8) (s : State) : Result :=
  (s.effectiveAddress mode disp).andThen fun ea s =>
    (s.memRead ea.1 ea.2).andThen fun m s =>
      (s.memWrite ea.1 ea.2 (m + 1)).andThen fun _ s => .next (s.skipIf (m + 1 == 0))

/-- STD (R116): A, then D, each write staying if the next faults. -/
def execStd (mode : Mode) (disp : BitVec 8) (s : State) : Result :=
  (s.effectiveAddress mode disp).andThen fun ea s =>
    (s.memWrite ea.1 ea.2 (s.cur .a)).andThen fun _ s =>
      (s.memWrite (ea.1 + 1) ea.2 (s.cur .d)).andThen fun _ s => .next s.next

/-- LDD (R117): A, then D, A staying loaded if the second read faults. -/
def execLdd (mode : Mode) (disp : BitVec 8) (s : State) : Result :=
  (s.effectiveAddress mode disp).andThen fun ea s =>
    (s.memRead ea.1 ea.2).andThen fun v s =>
      ((s.setCur .a v).memRead (ea.1 + 1) ea.2).andThen fun w s => .next (s.setCur .d w).next

/-- STF (R118): T, A, D. -/
def execStf (mode : Mode) (disp : BitVec 8) (s : State) : Result :=
  (s.effectiveAddress mode disp).andThen fun ea s =>
    (s.memWrite ea.1 ea.2 (s.cur .t)).andThen fun _ s =>
      (s.memWrite (ea.1 + 1) ea.2 (s.cur .a)).andThen fun _ s =>
        (s.memWrite (ea.1 + 2) ea.2 (s.cur .d)).andThen fun _ s => .next s.next

/-- LDF (R119): T, A, D, each staying loaded if a later read faults. -/
def execLdf (mode : Mode) (disp : BitVec 8) (s : State) : Result :=
  (s.effectiveAddress mode disp).andThen fun ea s =>
    (s.memRead ea.1 ea.2).andThen fun u s =>
      ((s.setCur .t u).memRead (ea.1 + 1) ea.2).andThen fun v s =>
        ((s.setCur .a v).memRead (ea.1 + 2) ea.2).andThen fun w s =>
          .next (s.setCur .d w).next

end Sys2Proof.Machine
end

