-- ==== Sys2Proof/Machine/MulDivByte.lean ====
section
/-! DEFINITION. Multiply, divide, MIX3, the byte instructions, TSET and RDUS of
spec/44_muldiv_byte.md, R200 to R211. -/

namespace Sys2Proof.Machine

/-- MPY (R200): A gets the low 16 bits, Q and O by the magnitude test. -/
def execMpy (mode : Mode) (disp : BitVec 8) (s : State) : Result :=
  (s.readOperand mode disp).andThen fun m s =>
    let p := (s.cur .a).toInt * m.toInt
    .next ((s.overflowFlags (mpyOverflow p)).setCur .a (BitVec.ofInt 16 p)).next

/-- RMPY (R201): the 32-bit product to A and D. -/
def execRmpy (sr dr : RegField) (s : State) : Result :=
  let p := (s.fieldValue sr).toInt * (s.fieldValue dr).toInt
  let v := BitVec.ofInt 32 p
  .next
    (((s.overflowFlags (rmpyOverflow p)).setCur .a (v.extractLsb' 16 16)).setCur .d
      (v.extractLsb' 0 16)).next

/-- RDIV (R202): truncating division of A:D, quotient to A, remainder to D. With divisor 0 the
parameter `DivZero` decides (R203; log 5). -/
def execRdiv (sr : RegField) (s : State) : Result :=
  let n := (s.cur .a ++ s.cur .d).toInt
  let d := (s.fieldValue sr).toInt
  if d = 0 then
    match Config.divZero (s.cur .a) (s.cur .d) with
    | .refuse => .refused .divZero
    | .result quotient remainder => .next ((s.setCur .a quotient).setCur .d remainder).next
  else
    .next ((s.setCur .a (BitVec.ofInt 16 (n.tdiv d))).setCur .d (BitVec.ofInt 16 (n.tmod d))).next

/-- MIX3 (R204): `X <- (A - 1) * 3`. -/
def execMix3 (s : State) : Result := .next (s.setCur .x ((s.cur .a - 1) * 3)).next

/-- The word of the byte string that LBYT and SBYT use: `T + (X >> 1)` (R207). -/
def State.byteStringAddress (s : State) : Word := s.cur .t + (s.cur .x >>> 1)

/-- LBYT (R207): an even byte index takes bits 15:8. -/
def execLbyt (s : State) : Result :=
  (s.memRead s.byteStringAddress true).andThen fun m s =>
    let v : Byte := if (s.cur .x).getLsbD 0 then m.extractLsb' 0 8 else m.extractLsb' 8 8
    .next (s.setCur .a (v.zeroExtend 16)).next

/-- SBYT (R208). -/
def execSbyt (s : State) : Result :=
  (s.memWriteByte s.byteStringAddress true ((s.cur .x).getLsbD 0)
    ((s.cur .a).extractLsb' 0 8)).andThen fun _ s => .next s.next

/-- TSET (R210): T stays loaded if the write faults. -/
def execTset (s : State) : Result :=
  (s.memRead (s.cur .x) true).andThen fun v s =>
    ((s.setCur .t v).memWrite (s.cur .x) true 0o177777).andThen fun _ s => .next s.next

/-- RDUS (R211). -/
def execRdus (s : State) : Result :=
  (s.memRead (s.cur .x) true).andThen fun v s => .next (s.setCur .t v).next

end Sys2Proof.Machine
end

