-- ==== Sys2Proof/Machine/RegisterOps.lean ====
section
/-! DEFINITION. The register operations (R151 to R156) and the argument instructions (R160 to R168) of
spec/42_register_ops.md. -/

namespace Sys2Proof.Machine

/-- SWAP (R152): the source register receives the destination operand, then the destination the
source. A write to P through either field is a jump; when both are P the destination wins. -/
def execSwap (cm1 cld : Bool) (sr dr : RegField) (s : State) : Result :=
  let v := s.roSource cm1 sr
  let d := s.roDest cld dr
  match sr with
  | none => .next (s.roFinish dr v)
  | some .p =>
    match dr with
    | none => .next (s.jump d)
    | some .p => .next (s.jump v)
    | some r => .next ((s.setCur r v).jump d)
  | some q => .next ((s.setCur q d).roFinish dr v)

/-- A register operation that combines the operands `d` and `s` and writes no flag. -/
def combineRegisters (f : (d s : Word) → Word) (cm1 cld : Bool) (sr dr : RegField) (s : State) :
    Result :=
  .next (s.roFinish dr (f (s.roDest cld dr) (s.roSource cm1 sr)))

/-- RAND (R153). -/
def execRand (cm1 cld : Bool) (sr dr : RegField) (s : State) : Result :=
  combineRegisters (· &&& ·) cm1 cld sr dr s

/-- REXO (R154). -/
def execRexo (cm1 cld : Bool) (sr dr : RegField) (s : State) : Result :=
  combineRegisters (· ^^^ ·) cm1 cld sr dr s

/-- RORA (R155). -/
def execRora (cm1 cld : Bool) (sr dr : RegField) (s : State) : Result :=
  combineRegisters (· ||| ·) cm1 cld sr dr s

/-- The carry into RADD: 1 with AD1, else the old C with ADC (R156). -/
def State.raddCarryIn (s : State) (adc ad1 : Bool) : Bool := ad1 || (adc && s.flag .c)

/-- RADD (R156): flags are written whatever the destination. -/
def execRadd (adc ad1 cm1 cld : Bool) (sr dr : RegField) (s : State) : Result :=
  let v := s.roSource cm1 sr
  let d := s.roDest cld dr
  let cin := s.raddCarryIn adc ad1
  .next ((s.addFlags d v cin).roFinish dr (addSum d v cin))

/-- SAB (R161). -/
def execSab (arg : BitVec 8) (s : State) : Result := .next (s.setCur .b (sext8 arg)).next

/-- SAA (R162). -/
def execSaa (arg : BitVec 8) (s : State) : Result := .next (s.setCur .a (sext8 arg)).next

/-- SAT (R163). -/
def execSat (arg : BitVec 8) (s : State) : Result := .next (s.setCur .t (sext8 arg)).next

/-- SAX (R164). -/
def execSax (arg : BitVec 8) (s : State) : Result := .next (s.setCur .x (sext8 arg)).next

/-- AAB (R165). -/
def execAab (arg : BitVec 8) (s : State) : Result := .next (s.addTo .b (sext8 arg) false).next

/-- AAA (R166). -/
def execAaa (arg : BitVec 8) (s : State) : Result := .next (s.addTo .a (sext8 arg) false).next

/-- AAT (R167). -/
def execAat (arg : BitVec 8) (s : State) : Result := .next (s.addTo .t (sext8 arg) false).next

/-- AAX (R168). -/
def execAax (arg : BitVec 8) (s : State) : Result := .next (s.addTo .x (sext8 arg) false).next

end Sys2Proof.Machine
end

