-- ==== Sys2Proof/Machine/Shifts.lean ====
section
/-! DEFINITION. The shift engine and the shift instructions of spec/43_shift.md, R190 to R194. -/

namespace Sys2Proof.Machine

/-- One step to the left: the vector and M after it (R190). -/
def shiftLeftStep {w : Nat} (type : ShiftType) (v : BitVec w) (m : Bool) : BitVec w × Bool :=
  let out := v.getLsbD (w - 1)
  let input :=
    match type with
    | .plain => false
    | .rot => out
    | .zin => false
    | .lin => m
  (setBitTo (v <<< 1) 0 input, out)

/-- One step to the right: the vector and M after it (R190). -/
def shiftRightStep {w : Nat} (type : ShiftType) (v : BitVec w) (m : Bool) : BitVec w × Bool :=
  let out := v.getLsbD 0
  let input :=
    match type with
    | .plain => v.getLsbD (w - 1)
    | .rot => out
    | .zin => false
    | .lin => m
  (setBitTo (v >>> 1) (w - 1) input, out)

/-- A step repeated. -/
def shiftSteps {w : Nat} (step : BitVec w → Bool → BitVec w × Bool) :
    Nat → BitVec w → Bool → BitVec w × Bool
  | 0, v, m => (v, m)
  | n + 1, v, m => shiftSteps step n (step v m).1 (step v m).2

/-- The engine: `|n|` single-bit steps, to the left for `n > 0`, to the right for `n < 0` (R190). -/
def shiftEngine {w : Nat} (type : ShiftType) (n : Int) (v : BitVec w) (m : Bool) : BitVec w × Bool :=
  if 0 ≤ n then shiftSteps (shiftLeftStep type) n.toNat v m
  else shiftSteps (shiftRightStep type) (-n).toNat v m

/-- Shifts one register. -/
def shiftRegister (r : Reg) (type : ShiftType) (n : Int) (s : State) : Result :=
  let out := shiftEngine type n (s.cur r) (s.flag .m)
  .next ((s.setCur r out.1).setFlag .m out.2).next

/-- SHT (R191). -/
def execSht (type : ShiftType) (n : Int) (s : State) : Result := shiftRegister .t type n s

/-- SHD (R192). -/
def execShd (type : ShiftType) (n : Int) (s : State) : Result := shiftRegister .d type n s

/-- SHA (R193). -/
def execSha (type : ShiftType) (n : Int) (s : State) : Result := shiftRegister .a type n s

/-- SAD (R194): A and D as one 32-bit register. -/
def execSad (type : ShiftType) (n : Int) (s : State) : Result :=
  let v : BitVec 32 := s.cur .a ++ s.cur .d
  let out := shiftEngine type n v (s.flag .m)
  .next
    (((s.setCur .a (out.1.extractLsb' 16 16)).setCur .d (out.1.extractLsb' 0 16)).setFlag .m
      out.2).next

end Sys2Proof.Machine
end

