-- ==== Sys2Proof/Machine/System.lean ====
section
/-! DEFINITION. The internal registers and the mode switches of spec/46_system.md, R250 to R267. Every
instruction here is privileged (60_exceptions.md R331). -/

namespace Sys2Proof.Machine

/-- The level that bits 6:3 of A select (R253, R254). -/
def State.selectedLevel (s : State) : Level := (s.cur .a).extractLsb' 3 4

/-- `Read(n)` of TRA before any side effect (R252, R253). -/
def State.internalRead (s : State) (n : BitVec 4) : Word :=
  if n = 0o1 then s.sts s.pil
  else if n = 0o3 then s.pgs
  else if n = 0o4 then 0o153602 ||| (s.pvl.zeroExtend 16 <<< 3)
  else if n = 0o5 then (highestBit s.iid).zeroExtend 16
  else if n = 0o6 then s.pid
  else if n = 0o7 then s.pie
  else if n = 0o14 then s.pcrOf s.selectedLevel
  else s.external n

/-- TRA (R252, R253): reading IIC clears IID. -/
def execTra (n : BitVec 4) (s : State) : Result :=
  privileged s fun s =>
    let t := s.setCur .a (s.internalRead n)
    .next (if n = 0o5 then { t with iid := 0 } else t).next

/-- The bits of a page-control register that are stored: PT, APT, RING (R254). -/
def pcrMask : Word := 0o003603

/-- The effect of TRR (R254); what a write to a register outside the block does to what the surroundings
present is the parameter `ExtRegWrite` (log 7). -/
def State.internalWrite (s : State) (n : BitVec 4) : State :=
  if n = 0o1 then s.setCurFlags ((s.cur .a).extractLsb' 0 8)
  else if n = 0o3 then s.setPcr s.selectedLevel (s.cur .a &&& pcrMask)
  else if n = 0o5 then { s with iie := s.cur .a }
  else if n = 0o6 then { s with pid := s.cur .a }
  else if n = 0o7 then { s with pie := s.cur .a }
  else { s with ext := Config.extRegWrite n (s.cur .a) s.ext }

/-- TRR (R254). -/
def execTrr (n : BitVec 4) (s : State) : Result :=
  privileged s fun s => .next (s.internalWrite n).next

/-- MCL (R255). -/
def execMcl (n : BitVec 4) (s : State) : Result :=
  privileged s fun s =>
    let a := s.cur .a
    .next
      (if n = 0o1 then s.setCurFlags (s.curFlags &&& ~~~(a.extractLsb' 0 8))
       else if n = 0o6 then { s with pid := s.pid &&& ~~~a }
       else if n = 0o7 then { s with pie := s.pie &&& ~~~a }
       else s).next

/-- MST (R256). -/
def execMst (n : BitVec 4) (s : State) : Result :=
  privileged s fun s =>
    let a := s.cur .a
    .next
      (if n = 0o1 then s.setCurFlags (s.curFlags ||| a.extractLsb' 0 8)
       else if n = 0o6 then { s with pid := s.pid ||| a }
       else if n = 0o7 then { s with pie := s.pie ||| a }
       else s).next

/-- IOF (R260). -/
def execIof (s : State) : Result := privileged s fun s => .next { s with ioni := false }.next

/-- ION (R261). -/
def execIon (s : State) : Result := privileged s fun s => .next { s with ioni := true }.next

/-- POF (R262). -/
def execPof (s : State) : Result := privileged s fun s => .next { s with poni := false }.next

/-- PON (R263). -/
def execPon (s : State) : Result := privileged s fun s => .next { s with poni := true }.next

/-- PIOF (R264). -/
def execPiof (s : State) : Result :=
  privileged s fun s => .next { s with poni := false, ioni := false }.next

/-- PION (R265). -/
def execPion (s : State) : Result :=
  privileged s fun s => .next { s with poni := true, ioni := true }.next

/-- SEX (R266). -/
def execSex (s : State) : Result := privileged s fun s => .next { s with sexi := true }.next

/-- REX (R267). -/
def execRex (s : State) : Result := privileged s fun s => .next { s with sexi := false }.next

/-- OPCOM (R285): the CPU stops, as if the host had stopped it. -/
def execOpcom (s : State) : Result := privileged s fun s => .next { s with runMode := .stop }.next

end Sys2Proof.Machine
end

