-- ==== Sys2Proof/Machine/Unimplemented.lean ====
section
/-! DEFINITION. The recognised instructions the spec does not specify (30_encoding.md R93): each halts
the CPU and does nothing else (46_system.md R290, 60_exceptions.md R322). -/

namespace Sys2Proof.Machine

/-- The effect of an unimplemented instruction: RunMode becomes SHUTDOWN (R290). -/
def haltCpu (s : State) : Result := .next { s with runMode := .shutdown }

/-- ADDD (R290). -/
def execAddd (s : State) : Result := haltCpu s

/-- SUBD (R290). -/
def execSubd (s : State) : Result := haltCpu s

/-- COMD (R290). -/
def execComd (s : State) : Result := haltCpu s

/-- PACK (R290). -/
def execPack (s : State) : Result := haltCpu s

/-- UPACK (R290). -/
def execUpack (s : State) : Result := haltCpu s

/-- SHDE (R290). -/
def execShde (s : State) : Result := haltCpu s

/-- BFILL (R290). -/
def execBfill (s : State) : Result := haltCpu s

/-- MOVB (R290). -/
def execMovb (s : State) : Result := haltCpu s

/-- MOVBF (R290). -/
def execMovbf (s : State) : Result := haltCpu s

/-- INIT (R290). -/
def execInit (s : State) : Result := haltCpu s

/-- ENTR (R290). -/
def execEntr (s : State) : Result := haltCpu s

/-- LEAVE (R290). -/
def execLeave (s : State) : Result := haltCpu s

/-- ELEAV (R290). -/
def execEleav (s : State) : Result := haltCpu s

/-- SETPT (R290). -/
def execSetpt (s : State) : Result := haltCpu s

/-- CLEPT (R290). -/
def execClept (s : State) : Result := haltCpu s

/-- CLNREENT (R290). -/
def execClnreent (s : State) : Result := haltCpu s

/-- CHREENTPAGES (R290). -/
def execChreentpages (s : State) : Result := haltCpu s

/-- CLEPU (R290). -/
def execClepu (s : State) : Result := haltCpu s

/-- MOVEW (R290). -/
def execMovew (s : State) : Result := haltCpu s

/-- LWCS (R290). -/
def execLwcs (s : State) : Result := haltCpu s

/-- LDBTX (R290). -/
def execLdbtx (_delta : BitVec 3) (s : State) : Result := haltCpu s

end Sys2Proof.Machine
end

