-- ==== Sys2Proof/Machine/ExecuteRegister.lean ====
section
/-! DEFINITION. EXR (spec/41_control_transfer.md R149), which executes the word held in a register. The
instructions it can reach are listed here, since the Dispatcher's table calls EXR itself;
Laws/ExecuteRegister.lean proves that on every other instruction this list and the table agree. -/

namespace Sys2Proof.Machine

/-- An instruction executed by EXR: an EXR sets Z and continues, every other one runs as if fetched. -/
def executeInRegister (i : Instr) (s : State) : Result :=
  match i with
  | .stz mode disp => execStz mode disp s
  | .sta mode disp => execSta mode disp s
  | .stt mode disp => execStt mode disp s
  | .stx mode disp => execStx mode disp s
  | .std mode disp => execStd mode disp s
  | .ldd mode disp => execLdd mode disp s
  | .stf mode disp => execStf mode disp s
  | .ldf mode disp => execLdf mode disp s
  | .min mode disp => execMin mode disp s
  | .lda mode disp => execLda mode disp s
  | .ldt mode disp => execLdt mode disp s
  | .ldx mode disp => execLdx mode disp s
  | .add mode disp => execAdd mode disp s
  | .sub mode disp => execSub mode disp s
  | .and mode disp => execAnd mode disp s
  | .ora mode disp => execOra mode disp s
  | .fad mode disp => execFad mode disp s
  | .fsb mode disp => execFsb mode disp s
  | .fmu mode disp => execFmu mode disp s
  | .fdv mode disp => execFdv mode disp s
  | .mpy mode disp => execMpy mode disp s
  | .jmp mode disp => execJmp mode disp s
  | .jap disp => execJap disp s
  | .jan disp => execJan disp s
  | .jaz disp => execJaz disp s
  | .jaf disp => execJaf disp s
  | .jpc disp => execJpc disp s
  | .jnc disp => execJnc disp s
  | .jxz disp => execJxz disp s
  | .jxn disp => execJxn disp s
  | .jpl mode disp => execJpl mode disp s
  | .skpEql sr dr => execSkpEql sr dr s
  | .skpGeq sr dr => execSkpGeq sr dr s
  | .skpGre sr dr => execSkpGre sr dr s
  | .skpMgre sr dr => execSkpMgre sr dr s
  | .skpUeq sr dr => execSkpUeq sr dr s
  | .skpLss sr dr => execSkpLss sr dr s
  | .skpLst sr dr => execSkpLst sr dr s
  | .skpMlst sr dr => execSkpMlst sr dr s
  | .addd => execAddd s
  | .subd => execSubd s
  | .comd => execComd s
  | .pack => execPack s
  | .upack => execUpack s
  | .shde => execShde s
  | .bfill => execBfill s
  | .movb => execMovb s
  | .movbf => execMovbf s
  | .init => execInit s
  | .entr => execEntr s
  | .leave => execLeave s
  | .eleav => execEleav s
  | .setpt => execSetpt s
  | .clept => execClept s
  | .clnreent => execClnreent s
  | .chreentpages => execChreentpages s
  | .clepu => execClepu s
  | .movew => execMovew s
  | .lwcs => execLwcs s
  | .tset => execTset s
  | .rdus => execRdus s
  | .exr _ => .next (s.setFlag .z true).next
  | .rmpy sr dr => execRmpy sr dr s
  | .rdiv sr => execRdiv sr s
  | .lbyt => execLbyt s
  | .sbyt => execSbyt s
  | .mix3 => execMix3 s
  | .ldatx delta => execLdatx delta s
  | .ldxtx delta => execLdxtx delta s
  | .lddtx delta => execLddtx delta s
  | .ldbtx delta => execLdbtx delta s
  | .statx delta => execStatx delta s
  | .stztx delta => execStztx delta s
  | .stdtx delta => execStdtx delta s
  | .identPL10 => execIdentPL10 s
  | .identPL11 => execIdentPL11 s
  | .identPL12 => execIdentPL12 s
  | .identPL13 => execIdentPL13 s
  | .swap cm1 cld sr dr => execSwap cm1 cld sr dr s
  | .rand cm1 cld sr dr => execRand cm1 cld sr dr s
  | .rexo cm1 cld sr dr => execRexo cm1 cld sr dr s
  | .rora cm1 cld sr dr => execRora cm1 cld sr dr s
  | .radd adc ad1 cm1 cld sr dr => execRadd adc ad1 cm1 cld sr dr s
  | .tra n => execTra n s
  | .trr n => execTrr n s
  | .mcl n => execMcl n s
  | .mst n => execMst n s
  | .opcom => execOpcom s
  | .iof => execIof s
  | .ion => execIon s
  | .pof => execPof s
  | .piof => execPiof s
  | .sex => execSex s
  | .rex => execRex s
  | .pon => execPon s
  | .pion => execPion s
  | .ioxt => execIoxt s
  | .exam => execExam s
  | .depo => execDepo s
  | .wait => execWait s
  | .nlz scale => execNlz scale s
  | .dnz scale => execDnz scale s
  | .srb level => execSrb level s
  | .lrb level => execLrb level s
  | .mon n => execMon n s
  | .irw level reg => execIrw level reg s
  | .irr level reg => execIrr level reg s
  | .sht kind count => execSht kind count s
  | .shd kind count => execShd kind count s
  | .sha kind count => execSha kind count s
  | .sad kind count => execSad kind count s
  | .iox dev => execIox dev s
  | .sab arg => execSab arg s
  | .saa arg => execSaa arg s
  | .sat arg => execSat arg s
  | .sax arg => execSax arg s
  | .aab arg => execAab arg s
  | .aaa arg => execAaa arg s
  | .aat arg => execAat arg s
  | .aax arg => execAax arg s
  | .bsetZro bn dr => execBsetZro bn dr s
  | .bsetOne bn dr => execBsetOne bn dr s
  | .bsetBcm bn dr => execBsetBcm bn dr s
  | .bsetBac bn dr => execBsetBac bn dr s
  | .bskpZro bn dr => execBskpZro bn dr s
  | .bskpOne bn dr => execBskpOne bn dr s
  | .bskpBcm bn dr => execBskpBcm bn dr s
  | .bskpBac bn dr => execBskpBac bn dr s
  | .bstc bn dr => execBstc bn dr s
  | .bsta bn dr => execBsta bn dr s
  | .bldc bn dr => execBldc bn dr s
  | .blda bn dr => execBlda bn dr s
  | .banc bn dr => execBanc bn dr s
  | .band bn dr => execBand bn dr s
  | .borc bn dr => execBorc bn dr s
  | .bora bn dr => execBora bn dr s

/-- EXR (R149): an EXR in the register is recognised by its upper ten bits; an illegal word raises its
cause exactly as if fetched. -/
def execExr (sr : RegField) (s : State) : Result :=
  let v := s.fieldValue sr
  if v &&& 0o177700 = 0o140600 then .next (s.setFlag .z true).next
  else
    match decode v with
    | .ok i => executeInRegister i s
    | .error _ => .next s.illegalInstruction

end Sys2Proof.Machine
end

