-- ==== Sys2Proof/Machine/Dispatch.lean ====
section
/-! DEFINITION. The Dispatcher's table (spec/30_encoding.md R91): each instruction to its meaning. -/

namespace Sys2Proof.Machine

/-- The meaning of an instruction, run in the state in which P holds its own address. -/
def exec (i : Instr) (s : State) : Host.Outcome State Fault Refusal :=
  match i with
  | .stz mode disp => Sys2Proof.Machine.execStz mode disp s
  | .sta mode disp => Sys2Proof.Machine.execSta mode disp s
  | .stt mode disp => Sys2Proof.Machine.execStt mode disp s
  | .stx mode disp => Sys2Proof.Machine.execStx mode disp s
  | .std mode disp => Sys2Proof.Machine.execStd mode disp s
  | .ldd mode disp => Sys2Proof.Machine.execLdd mode disp s
  | .stf mode disp => Sys2Proof.Machine.execStf mode disp s
  | .ldf mode disp => Sys2Proof.Machine.execLdf mode disp s
  | .min mode disp => Sys2Proof.Machine.execMin mode disp s
  | .lda mode disp => Sys2Proof.Machine.execLda mode disp s
  | .ldt mode disp => Sys2Proof.Machine.execLdt mode disp s
  | .ldx mode disp => Sys2Proof.Machine.execLdx mode disp s
  | .add mode disp => Sys2Proof.Machine.execAdd mode disp s
  | .sub mode disp => Sys2Proof.Machine.execSub mode disp s
  | .and mode disp => Sys2Proof.Machine.execAnd mode disp s
  | .ora mode disp => Sys2Proof.Machine.execOra mode disp s
  | .fad mode disp => Sys2Proof.Machine.execFad mode disp s
  | .fsb mode disp => Sys2Proof.Machine.execFsb mode disp s
  | .fmu mode disp => Sys2Proof.Machine.execFmu mode disp s
  | .fdv mode disp => Sys2Proof.Machine.execFdv mode disp s
  | .mpy mode disp => Sys2Proof.Machine.execMpy mode disp s
  | .jmp mode disp => Sys2Proof.Machine.execJmp mode disp s
  | .jap disp => Sys2Proof.Machine.execJap disp s
  | .jan disp => Sys2Proof.Machine.execJan disp s
  | .jaz disp => Sys2Proof.Machine.execJaz disp s
  | .jaf disp => Sys2Proof.Machine.execJaf disp s
  | .jpc disp => Sys2Proof.Machine.execJpc disp s
  | .jnc disp => Sys2Proof.Machine.execJnc disp s
  | .jxz disp => Sys2Proof.Machine.execJxz disp s
  | .jxn disp => Sys2Proof.Machine.execJxn disp s
  | .jpl mode disp => Sys2Proof.Machine.execJpl mode disp s
  | .skpEql sr dr => Sys2Proof.Machine.execSkpEql sr dr s
  | .skpGeq sr dr => Sys2Proof.Machine.execSkpGeq sr dr s
  | .skpGre sr dr => Sys2Proof.Machine.execSkpGre sr dr s
  | .skpMgre sr dr => Sys2Proof.Machine.execSkpMgre sr dr s
  | .skpUeq sr dr => Sys2Proof.Machine.execSkpUeq sr dr s
  | .skpLss sr dr => Sys2Proof.Machine.execSkpLss sr dr s
  | .skpLst sr dr => Sys2Proof.Machine.execSkpLst sr dr s
  | .skpMlst sr dr => Sys2Proof.Machine.execSkpMlst sr dr s
  | .addd => Sys2Proof.Machine.execAddd s
  | .subd => Sys2Proof.Machine.execSubd s
  | .comd => Sys2Proof.Machine.execComd s
  | .pack => Sys2Proof.Machine.execPack s
  | .upack => Sys2Proof.Machine.execUpack s
  | .shde => Sys2Proof.Machine.execShde s
  | .bfill => Sys2Proof.Machine.execBfill s
  | .movb => Sys2Proof.Machine.execMovb s
  | .movbf => Sys2Proof.Machine.execMovbf s
  | .init => Sys2Proof.Machine.execInit s
  | .entr => Sys2Proof.Machine.execEntr s
  | .leave => Sys2Proof.Machine.execLeave s
  | .eleav => Sys2Proof.Machine.execEleav s
  | .setpt => Sys2Proof.Machine.execSetpt s
  | .clept => Sys2Proof.Machine.execClept s
  | .clnreent => Sys2Proof.Machine.execClnreent s
  | .chreentpages => Sys2Proof.Machine.execChreentpages s
  | .clepu => Sys2Proof.Machine.execClepu s
  | .movew => Sys2Proof.Machine.execMovew s
  | .lwcs => Sys2Proof.Machine.execLwcs s
  | .tset => Sys2Proof.Machine.execTset s
  | .rdus => Sys2Proof.Machine.execRdus s
  | .exr sr => Sys2Proof.Machine.execExr sr s
  | .rmpy sr dr => Sys2Proof.Machine.execRmpy sr dr s
  | .rdiv sr => Sys2Proof.Machine.execRdiv sr s
  | .lbyt => Sys2Proof.Machine.execLbyt s
  | .sbyt => Sys2Proof.Machine.execSbyt s
  | .mix3 => Sys2Proof.Machine.execMix3 s
  | .ldatx delta => Sys2Proof.Machine.execLdatx delta s
  | .ldxtx delta => Sys2Proof.Machine.execLdxtx delta s
  | .lddtx delta => Sys2Proof.Machine.execLddtx delta s
  | .ldbtx delta => Sys2Proof.Machine.execLdbtx delta s
  | .statx delta => Sys2Proof.Machine.execStatx delta s
  | .stztx delta => Sys2Proof.Machine.execStztx delta s
  | .stdtx delta => Sys2Proof.Machine.execStdtx delta s
  | .identPL10 => Sys2Proof.Machine.execIdentPL10 s
  | .identPL11 => Sys2Proof.Machine.execIdentPL11 s
  | .identPL12 => Sys2Proof.Machine.execIdentPL12 s
  | .identPL13 => Sys2Proof.Machine.execIdentPL13 s
  | .swap cm1 cld sr dr => Sys2Proof.Machine.execSwap cm1 cld sr dr s
  | .rand cm1 cld sr dr => Sys2Proof.Machine.execRand cm1 cld sr dr s
  | .rexo cm1 cld sr dr => Sys2Proof.Machine.execRexo cm1 cld sr dr s
  | .rora cm1 cld sr dr => Sys2Proof.Machine.execRora cm1 cld sr dr s
  | .radd adc ad1 cm1 cld sr dr => Sys2Proof.Machine.execRadd adc ad1 cm1 cld sr dr s
  | .tra n => Sys2Proof.Machine.execTra n s
  | .trr n => Sys2Proof.Machine.execTrr n s
  | .mcl n => Sys2Proof.Machine.execMcl n s
  | .mst n => Sys2Proof.Machine.execMst n s
  | .opcom => Sys2Proof.Machine.execOpcom s
  | .iof => Sys2Proof.Machine.execIof s
  | .ion => Sys2Proof.Machine.execIon s
  | .pof => Sys2Proof.Machine.execPof s
  | .piof => Sys2Proof.Machine.execPiof s
  | .sex => Sys2Proof.Machine.execSex s
  | .rex => Sys2Proof.Machine.execRex s
  | .pon => Sys2Proof.Machine.execPon s
  | .pion => Sys2Proof.Machine.execPion s
  | .ioxt => Sys2Proof.Machine.execIoxt s
  | .exam => Sys2Proof.Machine.execExam s
  | .depo => Sys2Proof.Machine.execDepo s
  | .wait => Sys2Proof.Machine.execWait s
  | .nlz scale => Sys2Proof.Machine.execNlz scale s
  | .dnz scale => Sys2Proof.Machine.execDnz scale s
  | .srb level => Sys2Proof.Machine.execSrb level s
  | .lrb level => Sys2Proof.Machine.execLrb level s
  | .mon n => Sys2Proof.Machine.execMon n s
  | .irw level reg => Sys2Proof.Machine.execIrw level reg s
  | .irr level reg => Sys2Proof.Machine.execIrr level reg s
  | .sht kind count => Sys2Proof.Machine.execSht kind count s
  | .shd kind count => Sys2Proof.Machine.execShd kind count s
  | .sha kind count => Sys2Proof.Machine.execSha kind count s
  | .sad kind count => Sys2Proof.Machine.execSad kind count s
  | .iox dev => Sys2Proof.Machine.execIox dev s
  | .sab arg => Sys2Proof.Machine.execSab arg s
  | .saa arg => Sys2Proof.Machine.execSaa arg s
  | .sat arg => Sys2Proof.Machine.execSat arg s
  | .sax arg => Sys2Proof.Machine.execSax arg s
  | .aab arg => Sys2Proof.Machine.execAab arg s
  | .aaa arg => Sys2Proof.Machine.execAaa arg s
  | .aat arg => Sys2Proof.Machine.execAat arg s
  | .aax arg => Sys2Proof.Machine.execAax arg s
  | .bsetZro bn dr => Sys2Proof.Machine.execBsetZro bn dr s
  | .bsetOne bn dr => Sys2Proof.Machine.execBsetOne bn dr s
  | .bsetBcm bn dr => Sys2Proof.Machine.execBsetBcm bn dr s
  | .bsetBac bn dr => Sys2Proof.Machine.execBsetBac bn dr s
  | .bskpZro bn dr => Sys2Proof.Machine.execBskpZro bn dr s
  | .bskpOne bn dr => Sys2Proof.Machine.execBskpOne bn dr s
  | .bskpBcm bn dr => Sys2Proof.Machine.execBskpBcm bn dr s
  | .bskpBac bn dr => Sys2Proof.Machine.execBskpBac bn dr s
  | .bstc bn dr => Sys2Proof.Machine.execBstc bn dr s
  | .bsta bn dr => Sys2Proof.Machine.execBsta bn dr s
  | .bldc bn dr => Sys2Proof.Machine.execBldc bn dr s
  | .blda bn dr => Sys2Proof.Machine.execBlda bn dr s
  | .banc bn dr => Sys2Proof.Machine.execBanc bn dr s
  | .band bn dr => Sys2Proof.Machine.execBand bn dr s
  | .borc bn dr => Sys2Proof.Machine.execBorc bn dr s
  | .bora bn dr => Sys2Proof.Machine.execBora bn dr s

end Sys2Proof.Machine
end

