-- ==== Sys2Proof/Machine/Environment.lean ====
section
/-! DEFINITION. The actions of the device agents and of the host (spec/00_scope.md R4, R9; log 8). Each
is one atomic action between CPU steps. -/

namespace Sys2Proof.Machine

/-- An access made for a device or a loader: the state it leaves, completed or faulted, or its refusal
(20_memory.md R59). -/
def Access.alone {α : Type} (x : Access α) : Result := x.andThen fun _ t => .next t

/-- The action of the environment.

DESIGN CHOICE, log 18: no action writes PIE. R9(b) of 00_scope.md lists PIE among what device agents mutate;
the interfaces of R4 and the writers of 10_state.md R15 give a device no write of it.

DESIGN CHOICE, log 19: the start address is written in STOP only, before the host starts the CPU
(70_reset_and_hazards.md R351); in RUN and STEP the CPU is the one writer of registers (10_state.md R11) and
the action does nothing. -/
def State.act (s : State) : EnvAction → Result
  | .raiseInterrupt level mask => .next (s.raiseInt level mask)
  | .deviceInterrupt level code caller =>
    .next ({ s with identChain := s.identChain ++ [IdentEntry.mk level code caller] }.raiseInt level 0)
  | .physWrite pa v => (s.physWrite pa v).alone
  | .memRead addr apt => (s.memRead addr apt).alone
  | .memWrite addr apt v => (s.memWrite addr apt v).alone
  | .memFetch addr apt => (s.memFetchFrom addr apt).alone
  | .setStartAddress v => .next (if s.runMode = .stop then s.setReg 0 .p v else s)
  | .setRunMode m => .next { s with runMode := m }
  | .setExternal n v => .next (s.setExternal n v)

end Sys2Proof.Machine
end

