-- ==== Sys2Proof/Machine/Cycle.lean ====
section
/-! DEFINITION. The fetch-decode-dispatch step (spec/30_encoding.md R80), the run modes (60_exceptions.md
R340), whose turn it is (00_scope.md R9), and the placing of a word where the next fetch reads it. -/

namespace Sys2Proof.Machine

/-- A decoded word executed: an instruction by the Dispatcher's table, an illegal word by its cause
(R82, R91). -/
def executeWord (w : Word) (s : State) : Result :=
  match decode w with
  | .ok i => exec i s
  | .error _ => .next s.illegalInstruction

/-- Fetch at P, decode, execute; a fetch that faults executes nothing (R80). -/
def fetchExecute (s : State) : Result := (s.memFetch (s.cur .p)).andThen executeWord

/-- One CPU step: the instruction, then the interrupt check, whether it completed or was abandoned (R80,
60_exceptions.md R314; log 10). -/
def cpuStep (s : State) : Result :=
  match fetchExecute s with
  | .next t => .next t.interruptCheck
  | .fault f => .fault f
  | .refused r => .refused r

/-- The end of a step taken in STEP: RunMode becomes STOP, unless the step ended in SHUTDOWN, which is
terminal (R21, R340; log 9). -/
def State.endSingleStep (t : State) : State :=
  if t.runMode = .shutdown then t else { t with runMode := .stop }

/-- The CPU's turn in each run mode (R340; log 9). -/
def cpuTurn (s : State) : Result :=
  match s.runMode with
  | .run => cpuStep s
  | .step =>
    match cpuStep s with
    | .next t => .next t.endSingleStep
    | .fault f => .fault f
    | .refused r => .refused r
  | .stop => .next s
  | .shutdown => .fault .shutdown

/-- One turn of the machine: the first turn of the script, or the CPU's (R9; log 8). In SHUTDOWN no
further step is taken (R21, R290). -/
def machineTurn (s : State) : Result :=
  if s.runMode = .shutdown then .fault .shutdown
  else
    match s.turns with
    | [] => cpuTurn s
    | .cpu :: rest => cpuTurn { s with turns := rest }
    | .env action :: rest => { s with turns := rest }.act action

/-- A page-table entry that lets a level of any ring fetch from its page (log 11). -/
def fetchableEntry (e : Pte) : Pte := setBitTo (e &&& ~~~(3#32 <<< 24)) 29 true

/-- A word stored where the next fetch at P reads it: a page-table entry in the shadow window, else a
physical word; an entry that forbids the fetch is given the fetch permit and ring 0 (log 11). -/
def State.placeAtFetch (s : State) (w : Word) : State :=
  match s.locate .fetch (s.cur .p) false with
  | .shadow t i view => s.setPte t i (shadowWrite (s.pte t i) w view)
  | .physical pa _ => s.setPhys pa w
  | .fault _ t vpn =>
    let s' := s.setPte t vpn (fetchableEntry (s.pte t vpn))
    s'.setPhys (s'.pageNumber (s'.pte t vpn) ++ (s.cur .p).extractLsb' 0 10) w

/-- The host's load and start of one word (70_reset_and_hazards.md R351; log 11): the word is placed, a
stopped machine is set to RUN, and the script gives the CPU the next turn. -/
def State.loadForFetch (s : State) (w : Word) : State :=
  { s with
    turns := []
    runMode := if s.runMode = RunMode.step then .step else .run }.placeAtFetch w

end Sys2Proof.Machine
end

