-- ==== Sys2Proof/Machine/Step.lean ====
section
/-! DEFINITION. One step of the machine, and the placing of the next instruction (spec/30_encoding.md
R80; log 11). -/

namespace Sys2Proof.Machine

/-- One step: one turn of the CPU, of a device agent or of the host. -/
def step (s : State) : Host.Outcome State Fault Refusal := machineTurn s

/-- The state with the instruction whose table bits are `w` (of which `nbits` are given) placed where
`step` fetches next, and the machine set running (log 11). -/
def State.withFetchWord (s : State) (nbits w : Nat) : State :=
  s.loadForFetch (BitVec.ofNat 16 (w % 2 ^ nbits))

end Sys2Proof.Machine
end

