-- ==== Sys2Proof/Safety.lean ====
section
/-! DEFINITION. What a good state is, and the tables the claims are stated in: which instructions are
privileged or unimplemented, and what each instruction may change. -/

namespace Sys2Proof.Machine

/-! ### The invariant -/

/-- The bits of PGS that read as 0: 13:8 (10_state.md R20). -/
def pgsZeroBits : Word := 0o037400

/-- The invariant of the machine: memory is in its canonical form, every page-control register has only
its fields (R19: "all other bits read as 0"), and PGS has only its fields (R20). -/
structure State.Good (s : State) : Prop where
  memory : s.mem.wf = true
  pageControl : ∀ l : Level, s.pcrOf l &&& ~~~pcrMask = 0
  syndrome : s.pgs &&& pgsZeroBits = 0

/-! ### Privilege (60_exceptions.md R326, R331) and the unimplemented set (30_encoding.md R93) -/

/-- The privileged instructions (R331). -/
def privilegedInstr : Instr → Bool
  | .tra _ | .trr _ | .mcl _ | .mst _ | .iof | .ion | .pof | .pon | .piof | .pion | .sex | .rex
  | .wait | .identPL10 | .identPL11 | .identPL12 | .identPL13 | .irr _ _ | .irw _ _ | .lrb _
  | .srb _ | .iox _ | .ioxt | .exam | .depo | .ldatx _ | .ldxtx _ | .lddtx _ | .statx _ | .stztx _
  | .stdtx _ | .opcom => true
  | _ => false

/-- `UNIMPL_SET` (R93). -/
def unimplementedInstr : Instr → Bool
  | .addd | .subd | .comd | .pack | .upack | .shde | .bfill | .movb | .movbf | .movew | .init | .entr
  | .leave | .eleav | .setpt | .clept | .clnreent | .chreentpages | .clepu | .ldbtx _ | .lwcs => true
  | _ => false

/-- The check of R326 passes: paging is off, or the ring is 2 or 3. -/
def State.mayRunPrivileged (s : State) : Prop := s.poni = false ∨ 2 ≤ s.ring

/-- The level is unprivileged: paging is on and the ring is 0 or 1 (R330). -/
def State.unprivileged (s : State) : Prop := s.poni = true ∧ s.ring < 2

/-- It is the CPU's turn: the script of turns is empty, or says so (log 8). -/
def State.cpusTurn (s : State) : Prop := s.turns = [] ∨ s.turns.head? = some .cpu

/-- The state with its turn taken from the script. -/
def State.turnTaken (s : State) : State := { s with turns := s.turns.tail }

/-- The instruction whose effect an instruction has: itself, or the one an EXR finds in its register;
none where EXR executes no instruction (41_control_transfer.md R149). -/
def State.executed (s : State) : Instr → Option Instr
  | .exr sr =>
    if s.fieldValue sr &&& 0o177700 = 0o140600 then none
    else
      match decode (s.fieldValue sr) with
      | .ok i => some i
      | .error _ => none
  | i => some i

/-! ### What an instruction may change

Each table is for an instruction that EXR does not wrap: an `exr` has the entry of the instruction it
executes. `level` is the current level. -/

/-- The registers of the current level an instruction may write, P apart. -/
def destinations (level : Level) : Instr → List Reg
  | .lda _ _ | .add _ _ | .sub _ _ | .and _ _ | .ora _ _ | .mpy _ _ | .lbyt | .tra _ | .identPL10
  | .identPL11 | .identPL12 | .identPL13 | .irr _ _ | .iox _ | .ioxt | .ldatx _ | .saa _ | .aaa _
  | .sha _ _ => [.a]
  | .ldt _ _ | .tset | .rdus | .exam | .sat _ | .aat _ | .sht _ _ => [.t]
  | .ldx _ _ | .jpc _ | .jnc _ | .mix3 | .ldxtx _ | .sax _ | .aax _ => [.x]
  | .sab _ | .aab _ => [.b]
  | .shd _ _ => [.d]
  | .jpl _ _ => [.l]
  | .ldd _ _ | .sad _ _ | .rmpy _ _ | .rdiv _ | .lddtx _ => [.a, .d]
  | .ldf _ _ | .fad _ _ | .fsb _ _ | .fmu _ _ | .fdv _ _ | .nlz _ | .dnz _ => [.t, .a, .d]
  | .swap _ _ sr dr => sr.toList ++ dr.toList
  | .rand _ _ _ dr | .rexo _ _ _ dr | .rora _ _ _ dr | .radd _ _ _ _ _ dr | .bsetZro _ dr
  | .bsetOne _ dr | .bsetBcm _ dr | .bsetBac _ dr | .bstc _ dr | .bsta _ dr => dr.toList
  | .irw l r => if l = level then r.toList else []
  | .lrb l => if l = level then [.x, .t, .a, .d, .l, .b] else []
  | .mon _ => if level = 14 then [.t] else []
  | _ => []

/-- All eight flags. -/
def allFlags : List Flag := [.ptm, .tg, .k, .z, .q, .o, .c, .m]

/-- The flags a bit write to a register field may write: those of bit `bn` of STS (42_register_ops.md
R170). -/
def bitFlags (bn : Nat) : RegField → List Flag
  | none => allFlags.filter fun g => g.bit = bn
  | some _ => []

/-- The flags of the current level an instruction may write (10_state.md R14). -/
def flagsWritten (level : Level) : Instr → List Flag
  | .add _ _ | .sub _ _ | .aab _ | .aaa _ | .aat _ | .aax _ | .radd _ _ _ _ _ _ => [.c, .q, .o]
  | .mpy _ _ | .rmpy _ _ => [.q, .o]
  | .fad _ _ | .fsb _ _ | .fmu _ _ | .fdv _ _ | .dnz _ => [.z]
  | .sht _ _ | .shd _ _ | .sha _ _ | .sad _ _ => [.m]
  | .bsetZro bn dr | .bsetOne bn dr | .bsetBcm bn dr | .bsetBac bn dr => bitFlags bn dr
  | .bstc bn dr | .bsta bn dr => .k :: bitFlags bn dr
  | .bldc _ _ | .blda _ _ | .banc _ _ | .band _ _ | .borc _ _ | .bora _ _ => [.k]
  | .trr n | .mcl n | .mst n => if n = 1 then allFlags else []
  | .irw l none => if l = level then allFlags else []
  | .lrb l => if l = level then allFlags else []
  | _ => []

/-- The level whose bank an instruction may write beside the current one (46_system.md R269, R272,
R273). -/
def otherLevel : Instr → Option Level
  | .irw l _ | .lrb l => some l
  | .mon _ => some 14
  | _ => none

/-- The parts of the state beside the register file. -/
inductive Part where
  | ioni | poni | sexi | pil | pvl | pid | pie | iid | iie | identChain | pageTables | pcr | pgs
  | runMode | memory | physWords | external | ioCount | turns
deriving DecidableEq, Repr

/-- Two states agree on a part. -/
def Part.same (s t : State) : Part → Prop
  | .ioni => t.ioni = s.ioni
  | .poni => t.poni = s.poni
  | .sexi => t.sexi = s.sexi
  | .pil => t.pil = s.pil
  | .pvl => t.pvl = s.pvl
  | .pid => t.pid = s.pid
  | .pie => t.pie = s.pie
  | .iid => t.iid = s.iid
  | .iie => t.iie = s.iie
  | .identChain => t.identChain = s.identChain
  | .pageTables => t.pt = s.pt
  | .pcr => t.pcr = s.pcr
  | .pgs => t.pgs = s.pgs
  | .runMode => t.runMode = s.runMode
  | .memory => t.mem = s.mem
  | .physWords => t.physWords = s.physWords
  | .external => t.ext = s.ext
  | .ioCount => t.ioCount = s.ioCount
  | .turns => t.turns = s.turns

/-- What a translated read may change: the marker bits, and on a fault PGS, IID, PID (20_memory.md R55,
R56). -/
def readParts : List Part := [.pageTables, .pgs, .iid, .pid]

/-- What raising an internal cause may change (60_exceptions.md R311). -/
def causeParts : List Part := [.iid, .pid]

/-- The parts an instruction may change. Every privileged one may raise the privileged-instruction
cause. -/
def partsWritten : Instr → List Part
  | .stz _ _ | .sta _ _ | .stt _ _ | .stx _ _ | .std _ _ | .stf _ _ | .min _ _ | .sbyt | .tset
  | .srb _ => .memory :: readParts
  | .lda _ _ | .ldt _ _ | .ldx _ _ | .ldd _ _ | .ldf _ _ | .add _ _ | .sub _ _ | .and _ _ | .ora _ _
  | .fad _ _ | .fsb _ _ | .fmu _ _ | .fdv _ _ | .mpy _ _ | .jmp _ _ | .jpl _ _ | .lbyt | .rdus
  | .lrb _ => readParts
  | .identPL10 | .identPL11 | .identPL12 | .identPL13 => .identChain :: causeParts
  | .trr n =>
    (if n = 0o1 then [] else if n = 0o3 then [.pcr] else if n = 0o5 then [.iie]
     else if n = 0o6 then [] else if n = 0o7 then [.pie] else [.external])
      ++ causeParts
  | .mcl n | .mst n => (if n = 0o7 then [.pie] else []) ++ causeParts
  | .iof | .ion => .ioni :: causeParts
  | .pof | .pon => .poni :: causeParts
  | .piof | .pion => .ioni :: .poni :: causeParts
  | .sex | .rex => .sexi :: causeParts
  | .wait | .opcom => .runMode :: causeParts
  | .iox _ | .ioxt => .ioCount :: causeParts
  | .depo | .statx _ | .stztx _ | .stdtx _ => .memory :: causeParts
  | .tra _ | .mon _ | .exam | .ldatx _ | .ldxtx _ | .lddtx _ | .irr _ _ | .irw _ _ => causeParts
  | .addd | .subd | .comd | .pack | .upack | .shde | .bfill | .movb | .movbf | .init | .entr | .leave
  | .eleav | .setpt | .clept | .clnreent | .chreentpages | .clepu | .movew | .lwcs | .ldbtx _ =>
    [.runMode]
  | _ => []

/-- The bytes of the physical word at an address. -/
def wordBytes (pa : PhysAddr) : List Nat := [highByteAddr pa, lowByteAddr pa]

/-- The bytes of memory that a word write to a virtual address may store to: those of the word the write
reaches, none in the shadow window or on a fault. -/
def State.bytesAt (s : State) (addr : Word) (apt : Bool) : List Nat :=
  match s.locate .write addr apt with
  | .physical pa _ => wordBytes pa
  | _ => []

/-- The bytes that a sequence of word writes may store to, each address computed in the state after the
writes before it. -/
def State.bytesOf (s : State) (apt : Bool) : List (Word × Word) → List Nat
  | [] => []
  | (addr, v) :: rest =>
    s.bytesAt addr apt ++
      match s.memWrite addr apt v with
      | .ok _ t => t.bytesOf apt rest
      | _ => []

/-- The bytes that writes at the effective address may store to. -/
def State.bytesAtOperand (s : State) (mode : Mode) (disp : BitVec 8)
    (words : Word → List (Word × Word)) : List Nat :=
  match s.effectiveAddress mode disp with
  | .ok ea t => t.bytesOf ea.2 (words ea.1)
  | _ => []

/-- The byte a byte-select write stores to (20_memory.md R58). -/
def selectedByte (pa : PhysAddr) (sel : Bool) : Nat := if sel then lowByteAddr pa else highByteAddr pa

/-- The bytes of memory an instruction may store to. -/
def storedBytes (s : State) : Instr → List Nat
  | .stz m d => s.bytesAtOperand m d fun ea => [(ea, 0)]
  | .sta m d => s.bytesAtOperand m d fun ea => [(ea, s.cur .a)]
  | .stt m d => s.bytesAtOperand m d fun ea => [(ea, s.cur .t)]
  | .stx m d => s.bytesAtOperand m d fun ea => [(ea, s.cur .x)]
  | .std m d => s.bytesAtOperand m d fun ea => [(ea, s.cur .a), (ea + 1, s.cur .d)]
  | .stf m d => s.bytesAtOperand m d fun ea => [(ea, s.cur .t), (ea + 1, s.cur .a), (ea + 2, s.cur .d)]
  | .min m d =>
    match s.effectiveAddress m d with
    | .ok ea t =>
      match t.memRead ea.1 ea.2 with
      | .ok v u => u.bytesOf ea.2 [(ea.1, v + 1)]
      | _ => []
    | _ => []
  | .sbyt =>
    match s.locate .write s.byteStringAddress true with
    | .physical pa _ => [selectedByte pa ((s.cur .x).getLsbD 0)]
    | _ => []
  | .tset =>
    match s.memRead (s.cur .x) true with
    | .ok _ t => t.bytesOf true [(s.cur .x, 0o177777)]
    | _ => []
  | .srb l => s.bytesOf true (s.blockAddresses.zip (s.blockValues l))
  | .depo => wordBytes s.panelAddress
  | .statx delta | .stztx delta => wordBytes (s.txAddress delta)
  | .stdtx delta => wordBytes (s.txAddress delta) ++ wordBytes (s.txAddress delta + 1)
  | _ => []

/-- The marker bits of a page-table entry: written, 28, and used, 27 (10_state.md R18). -/
def markerBits : Pte := 0x18000000

/-- An entry that differs from another at most by marker bits that were set. -/
def markedFrom (old new : Pte) : Prop :=
  new &&& ~~~markerBits = old &&& ~~~markerBits ∧ new &&& old = old

end Sys2Proof.Machine
end

