-- ==== Sys2Proof/WellFormed.lean ====
section
/-! DEFINITION. Which instructions are well formed: those whose operands fit the fields of
30_encoding.md R83 and R85. Operands of a bit-vector or enumerated type always fit; the three checks
below are for the operands held as numbers. -/

namespace Sys2Proof

/-- The shift count fits the signed 6-bit field: -32 to 31 (R85). -/
def countFits (n : Int) : Bool := decide (-32 ≤ n) && decide (n ≤ 31)

/-- The scaling factor of NLZ and DNZ fits the signed 8-bit field: -128 to 127 (R85). -/
def scaleFits (n : Int) : Bool := decide (-128 ≤ n) && decide (n ≤ 127)

/-- The bit number fits the 4-bit field: 0 to 15 (R85). -/
def bitFits (bn : Nat) : Bool := decide (bn < 16)

/-- The instruction's operands all fit their fields. -/
def Instr.wellFormed : Instr → Bool
  | .sht _ n | .shd _ n | .sha _ n | .sad _ n => countFits n
  | .nlz n | .dnz n => scaleFits n
  | .bsetZro bn _ | .bsetOne bn _ | .bsetBcm bn _ | .bsetBac bn _ | .bskpZro bn _ | .bskpOne bn _
  | .bskpBcm bn _ | .bskpBac bn _ | .bstc bn _ | .bsta bn _ | .bldc bn _ | .blda bn _ | .banc bn _
  | .band bn _ | .borc bn _ | .bora bn _ => bitFits bn
  | .stz _ _ | .sta _ _ | .stt _ _ | .stx _ _ | .std _ _ | .ldd _ _ | .stf _ _ | .ldf _ _
  | .min _ _ | .lda _ _ | .ldt _ _ | .ldx _ _ | .add _ _ | .sub _ _ | .and _ _ | .ora _ _
  | .fad _ _ | .fsb _ _ | .fmu _ _ | .fdv _ _ | .mpy _ _ | .jmp _ _ | .jap _ | .jan _ | .jaz _
  | .jaf _ | .jpc _ | .jnc _ | .jxz _ | .jxn _ | .jpl _ _ | .skpEql _ _ | .skpGeq _ _
  | .skpGre _ _ | .skpMgre _ _ | .skpUeq _ _ | .skpLss _ _ | .skpLst _ _ | .skpMlst _ _ | .addd
  | .subd | .comd | .pack | .upack | .shde | .bfill | .movb | .movbf | .init | .entr | .leave
  | .eleav | .setpt | .clept | .clnreent | .chreentpages | .clepu | .movew | .lwcs | .tset | .rdus
  | .exr _ | .rmpy _ _ | .rdiv _ | .lbyt | .sbyt | .mix3 | .ldatx _ | .ldxtx _ | .lddtx _
  | .ldbtx _ | .statx _ | .stztx _ | .stdtx _ | .identPL10 | .identPL11 | .identPL12 | .identPL13
  | .swap _ _ _ _ | .rand _ _ _ _ | .rexo _ _ _ _ | .rora _ _ _ _ | .radd _ _ _ _ _ _ | .tra _
  | .trr _ | .mcl _ | .mst _ | .opcom | .iof | .ion | .pof | .piof | .sex | .rex | .pon | .pion
  | .ioxt | .exam | .depo | .wait | .srb _ | .lrb _ | .mon _ | .irw _ _ | .irr _ _ | .iox _
  | .sab _ | .saa _ | .sat _ | .sax _ | .aab _ | .aaa _ | .aat _ | .aax _ => true

end Sys2Proof
end

