-- ==== Sys2Proof/Certificates/Slice0/Obligations.lean ====
section
/-! DEFINITION. The statements about the machine. Each docstring names the rules of spec/ it formalises. -/

namespace Sys2Proof.Claims

open Sys2Proof.Machine

/-! ### Words of an instruction as the rules write them, and operands by their rules -/

/-- A word of format MR or CJ with mode: the opcode value, the mode in bits 10:8, the displacement in
bits 7:0 (30_encoding.md R83, R86). -/
def mrWord (opcode : Word) (mode : Mode) (disp : BitVec 8) : Word :=
  opcode ||| (bitsOfMode mode ++ disp).zeroExtend 16

/-- A word with an 8-bit field in bits 7:0. -/
def lowWord (opcode : Word) (n : BitVec 8) : Word := opcode ||| n.zeroExtend 16

/-- A word with two register fields: `opcode + sr * 010 + dr`. -/
def regsWord (opcode : Word) (sr dr : RegField) : Word :=
  opcode ||| (codeOfReg sr ++ codeOfReg dr).zeroExtend 16

/-- A word of format RO: modifiers CM1 = 0200 and CLD = 0100 added (R86). -/
def roWord (opcode : Word) (cm1 cld : Bool) (sr dr : RegField) : Word :=
  regsWord opcode sr dr ||| (if cm1 then 0o200 else 0) ||| (if cld then 0o100 else 0)

/-- A word of format BO: `opcode + bn * 010 + dr`. -/
def boWord (opcode : Word) (bn : BitVec 4) (dr : RegField) : Word :=
  opcode ||| (bn ++ codeOfReg dr).zeroExtend 16

/-- A word of format ML: `opcode + level * 010 + reg`. -/
def mlWord (opcode : Word) (level : Level) (reg : BitVec 3) : Word :=
  opcode ||| (level ++ reg).zeroExtend 16

/-- A register field written: code 0 discards (R84). -/
def writeField (s : State) (r : RegField) (v : Word) : State :=
  match r with
  | none => s
  | some r => s.setCur r v

/-- The end of an instruction that wrote a register field: `next`, unless it wrote P
(42_register_ops.md R151). -/
def endUnlessP (s t : State) (wroteP : Bool) : State := if wroteP then t else t.jump (s.cur .p + 1)

/-- C, Q and O of the current level after an addition with these outcomes (R150). -/
def setCQO (s : State) (carry overflow : Bool) : State :=
  ((s.setFlag .c carry).setFlag .q overflow).setFlag .o (s.flag .o || overflow)

/-- The 17-bit sum of R150 as a number. -/
def sum17 (a b : Word) (cin : Bool) : Nat := a.toNat + b.toNat + cin.toNat

/-- The 16-bit sum of R150. -/
def sum16 (a b : Word) (cin : Bool) : Word := BitVec.ofNat 16 (sum17 a b cin)

/-- The overflow condition of R150: the operands share bit 15 and the sum's differs. -/
def sumOverflows (a b : Word) (cin : Bool) : Bool :=
  a.getLsbD 15 == b.getLsbD 15 && (sum16 a b cin).getLsbD 15 != a.getLsbD 15

/-- The state after `r <- add(r, b, cin)` and `next` (R150). -/
def afterAdd (s : State) (r : Reg) (b : Word) (cin : Bool) : State :=
  ((setCQO s (decide (2 ^ 16 ≤ sum17 (s.cur r) b cin)) (sumOverflows (s.cur r) b cin)).setCur r
    (sum16 (s.cur r) b cin)).jump (s.cur .p + 1)

/-- A float report as the effect on Z (45_float.md R228). -/
def setZIf (s : State) (reported : Bool) : State := if reported then s.setFlag .z true else s

/-- The state after `(T, A, D) <- pack(f)`, Z set if `reported`, and `next`. -/
def afterFloat (s : State) (f : Flt) (reported : Bool) : State :=
  (setZIf (((s.setCur .t (BitVec.ofBool f.sign ++ f.exp)).setCur .a (f.man.extractLsb' 16 16)).setCur
    .d (f.man.extractLsb' 0 16)) reported).jump (s.cur .p + 1)

/-- The float in T, A, D (R221). -/
def tad (s : State) : Flt := unpack (s.cur .t) (s.cur .a) (s.cur .d)

/-- The bits of a word that the decoder ignores (30_encoding.md R92), by the instruction it decodes
to. -/
def ignoredBits : Instr → Word
  | .sht _ _ | .shd _ _ | .sha _ _ | .sad _ _ => 0o100
  | .rdiv _ | .exr _ => 0o7
  | .lbyt | .sbyt | .mix3 => 0o77
  | .wait => 0o377
  | _ => 0

/-- The extended and system words that match a row of R87 or R88 with all or most bits fixed. -/
def fixedRow (w : Word) : Bool :=
  [0o140120, 0o140121, 0o140122, 0o140123, 0o140124, 0o140125, 0o140126, 0o140127, 0o140130, 0o140131,
    0o140132, 0o140134, 0o140135, 0o140136, 0o140137, 0o140300, 0o140301, 0o140302, 0o140303,
    0o140304, 0o143100, 0o143500, 0o143604, 0o143611, 0o143622, 0o143643, 0o150400, 0o150401,
    0o150402, 0o150404, 0o150405, 0o150406, 0o150407, 0o150410, 0o150412, 0o150415, 0o150416,
    0o150417].contains w

/-- The extended words that match a row of R87 with a field. -/
def fieldRow87 (w : Word) : Bool :=
  [0o140600, 0o141200, 0o141600, 0o142200, 0o142600, 0o143200].contains (w &&& 0o177700)
    || (w &&& 0o177700 == 0o143300 && w &&& 0o7 != 0o7)

/-- The system words that match a row of R88 with a field. -/
def fieldRow88 (w : Word) : Bool :=
  [0o150000, 0o150100, 0o150200, 0o150300].contains (w &&& 0o177760)
    || [0o151000, 0o151400, 0o152000, 0o153000].contains (w &&& 0o177400)
    || w &&& 0o177607 == 0o152402 || w &&& 0o177607 == 0o152600
    || [0o153400, 0o153600].contains (w &&& 0o177600)

/-- The words that match no row of R86 to R88 (R90). -/
def illegalWord (w : Word) : Bool :=
  w &&& 0o174000 == 0o160000
    || (w &&& 0o174000 == 0o140000 && w &&& 0o300 != 0 && !fixedRow w && !fieldRow87 w)
    || (w &&& 0o174000 == 0o150000 && !fixedRow w && !fieldRow88 w)

/-- The 23 instructions of format MR, each with its opcode value (R83, R86). -/
def memoryReference : List (Word × (Mode → BitVec 8 → Instr)) :=
  [(0o000000, .stz), (0o004000, .sta), (0o010000, .stt), (0o014000, .stx), (0o020000, .std),
    (0o024000, .ldd), (0o030000, .stf), (0o034000, .ldf), (0o040000, .min), (0o044000, .lda),
    (0o050000, .ldt), (0o054000, .ldx), (0o060000, .add), (0o064000, .sub), (0o070000, .and),
    (0o074000, .ora), (0o100000, .fad), (0o104000, .fsb), (0o110000, .fmu), (0o114000, .fdv),
    (0o120000, .mpy), (0o124000, .jmp), (0o134000, .jpl)]

/-- A float that is normalized: the top mantissa bit is 1 (45_float.md R220). -/
def normalized (f : Flt) : Prop := f.man.getLsbD 31 = true

/-- The result `range(s, e, m)` of 45_float.md R226. -/
def rangeResult (sign : Bool) (e : Int) (m : Nat) : Flt × FloatReport :=
  if 32767 < e then (⟨sign, 32767, 0xFFFFFFFF⟩, .overflow)
  else if e < 0 then (⟨sign, 0, 0⟩, .underflow)
  else (⟨sign, BitVec.ofInt 15 e, BitVec.ofNat 32 m⟩, .exact)

/-- `r` is the result of `normalize(s, e, t)` for a 32-bit `t` (R225): the standardized zero, or `t` shifted
left until its top bit is 1, the exponent reduced by the number of shifts. -/
def normalizesTo (sign : Bool) (e : Int) (t : Nat) (r : Flt × FloatReport) : Prop :=
  (t = 0 → r = (Flt.zero, .exact)) ∧
  (∀ k : Nat, 2 ^ 31 ≤ t * 2 ^ k → t * 2 ^ k < 2 ^ 32 → r = rangeResult sign (e - k) (t * 2 ^ k))

/-- How an access made for a device or a loader ends its turn. -/
def endsTurn {α : Type} (x : Access α) : Host.Outcome State Fault Refusal :=
  match x with
  | .ok _ t => .next t
  | .abandoned t => .next t
  | .refused r => .refused r

/-- A page-table entry through which the current ring may write (20_memory.md R52). -/
def writableEntry (s : State) (e : Pte) : Prop :=
  e.getLsbD 31 = true ∧ (e.extractLsb' 24 2).toNat ≤ s.ring.toNat

/-- The outcome of a CPU step whose instruction ended as `r`: the interrupt check after a next state
(60_exceptions.md R314). -/
def afterCheck (r : Host.Outcome State Fault Refusal) : Host.Outcome State Fault Refusal :=
  match r with
  | .next t => .next t.interruptCheck
  | o => o

/-- The state after a register block is loaded to a level from the words P, X, T, A, D, L, STS, B
(46_system.md R273). -/
def afterBlockLoad (s : State) (level : Level) (p x t a d l sts b : Word) : State :=
  let s := if level = s.pil then s else s.setReg level .p p
  let s := ((s.setReg level .x x).setReg level .t t).setReg level .a a
  let s := (s.setReg level .d d).setReg level .l l
  (s.setFlags level (sts.extractLsb' 0 8)).setReg level .b b

end Sys2Proof.Claims

open Sys2Proof Sys2Proof.Machine Sys2Proof.Claims

/-! ### Encoding -/

/-- 30_encoding.md R82, R83, R85 to R88: the decoder reads back every operand of every well-formed
instruction. -/
def Obligations.DecodeInvertsEncode : Prop :=
  ∀ i : Instr, i.wellFormed = true → decode (encode i) = .ok i

/-- R82, R92: a word that decodes gives a well-formed instruction, and encoding it gives the word back with
the ignored bits 0. -/
def Obligations.EncodeInvertsDecode : Prop :=
  ∀ (w : Word) (i : Instr), decode w = .ok i →
    i.wellFormed = true ∧ encode i = w &&& ~~~ignoredBits i

/-- Words of the spec's own examples, one or more of each format (30_encoding.md R83). -/
def Obligations.SampleWordsDecode : Prop :=
  decode 0o045001 = .ok (.lda .indP 1) ∧ decode 0o132376 = .ok (.jpc 0xFE) ∧
  decode 0o143065 = .ok (.skpLst (some .t) (some .a)) ∧ decode 0o146142 = .ok
    (.radd false false false true (some .l) (some .p)) ∧
  decode 0o172401 = .ok (.aaa 1) ∧ decode 0o174616 = .ok (.bsetBac 1 (some .t)) ∧
  decode 0o154677 = .ok (.sad .plain (-1)) ∧ decode 0o164300 = .ok (.iox 0o300) ∧
  decode 0o150107 = .ok (.trr 7) ∧ decode 0o152361 = .ok (.dnz (-15)) ∧
  decode 0o153632 = .ok (.irr 3 (some .p)) ∧ decode 0o141257 = .ok (.rmpy (some .a) (some .x)) ∧
  decode 0o143320 = .ok (.ldatx 2) ∧ decode 0o140123 = .ok .tset

/-- R90, 46_system.md R291: exactly the words that match no row of R86 to R88 are illegal; to execute one
raises cause 4 and changes nothing else. -/
def Obligations.IllegalWordsAreThoseOfNoRow : Prop :=
  (∀ w : Word, (∃ e, decode w = .error e) ↔ illegalWord w = true) ∧
  (∀ (w : Word) (s : State), illegalWord w = true → executeWord w s = .next (s.raiseInt 14 0o20))

/-- R92: the ignored bits have no effect; bits 5:4 of format M4 must be 00. -/
def Obligations.IgnoredBitsHaveNoEffect : Prop :=
  (∀ w : Word, w &&& 0o174000 = 0o154000 → decode (w ^^^ 0o100) = decode w) ∧
  (∀ (w : Word) (k : BitVec 3), w &&& 0o177700 = 0o141600 ∨ w &&& 0o177700 = 0o140600 →
    decode (w ^^^ k.zeroExtend 16) = decode w) ∧
  (∀ (w : Word) (k : BitVec 6), w &&& 0o177700 = 0o142200 ∨ w &&& 0o177700 = 0o142600 ∨
    w &&& 0o177700 = 0o143200 → decode (w ^^^ k.zeroExtend 16) = decode w) ∧
  (∀ (w : Word) (k : BitVec 8), w &&& 0o177400 = 0o151000 →
    decode (w ^^^ k.zeroExtend 16) = decode w) ∧
  (∀ w : Word, w &&& 0o177400 = 0o150000 → w &&& 0o60 ≠ 0 → ∃ e, decode w = .error e)

/-! ### Reset -/

/-- 70_reset_and_hazards.md R350: the values the spec gives for reset; and `PHYS_WORDS` has the default of
00_scope.md R5 (log 4). -/
def Obligations.ResetValues : Prop :=
  (∀ (l : Level) (r : Reg), State.reset.reg l r = 0) ∧
  (∀ (l : Level) (n : Fin 8), (State.reset.bank l).scratch[n] = 0) ∧
  (∀ l : Level, State.reset.flags l = 0) ∧
  (∀ l : Level, State.reset.sts l = 0o010000) ∧
  State.reset.ioni = false ∧ State.reset.poni = false ∧ State.reset.sexi = false ∧
  State.reset.pil = 0 ∧ State.reset.pid = 0 ∧ State.reset.pie = 0 ∧ State.reset.iid = 0 ∧
  State.reset.iie = 0 ∧ State.reset.pk = 0 ∧ State.reset.pvl = 0 ∧ State.reset.identChain = [] ∧
  (∀ (t : BitVec 2) (i : BitVec 6), State.reset.pte t i = 0) ∧
  (∀ l : Level, State.reset.pcrOf l = 0) ∧ State.reset.pgs = 0 ∧ State.reset.runMode = .stop ∧
  State.reset.physWords = 2 ^ 24

/-! ### Memory and translation -/

/-- 20_memory.md R57, R58: a physical word read after a word, or one selected byte of a word, was
written. -/
def Obligations.PhysicalReadAfterWrite : Prop :=
  ∀ (m : Memory) (pa qa : PhysAddr) (v : Word) (sel : Bool) (b : Byte),
    (m.writeWord pa v).readWord qa = (if qa = pa then v else m.readWord qa) ∧
    (m.writeSelected pa sel b).readWord qa =
      (if qa = pa then
        (if sel then (m.readWord pa).extractLsb' 8 8 ++ b else b ++ (m.readWord pa).extractLsb' 0 8)
      else m.readWord qa)

/-- R46: with paging off an access outside the shadow window goes to the physical word of the same
number, which is installed, with no check, no marker bit and no fault, whatever `apt` is: a read, a fetch, a
write and a byte-select write. -/
def Obligations.UntranslatedAccess : Prop :=
  ∀ (s : State) (addr v : Word) (apt sel : Bool) (b : Byte), s.poni = false → addr < s.shadowBase →
    addr.toNat < s.physWords →
    s.memRead addr apt = .ok (s.phys (addr.zeroExtend 24)) s ∧
    s.memFetchFrom addr apt = .ok (s.phys (addr.zeroExtend 24)) s ∧
    s.memWrite addr apt v = .ok () { s with mem := s.mem.writeWord (addr.zeroExtend 24) v } ∧
    s.memWriteByte addr apt sel b =
      .ok () { s with mem := s.mem.writeSelected (addr.zeroExtend 24) sel b }

/-- R52 to R54: with paging on, an access outside the visible window faults or reaches a word as the entry
of the selected table says, the checks in the order page fault, ring, permit; the alternate table is used
only when the access asks for it and PTM is 1. -/
def Obligations.TranslationChecksInOrder : Prop :=
  ∀ (s : State) (kind : AccessKind) (addr : Word) (apt : Bool),
    s.poni = true → (addr < s.shadowBase ∨ s.ring ≠ 3) →
    let t : BitVec 2 :=
      if apt = true ∧ s.flag .ptm = true then (s.pcrOf s.pil).extractLsb' 7 2
      else (s.pcrOf s.pil).extractLsb' 9 2
    let vpn : BitVec 6 := addr.extractLsb' 10 6
    let e := s.pte t vpn
    let permit :=
      match kind with
      | .write => e.getLsbD 31
      | .read => e.getLsbD 30
      | .fetch => e.getLsbD 29
    let noPermit := e.getLsbD 31 = false ∧ e.getLsbD 30 = false ∧ e.getLsbD 29 = false
    let ringAbove := ((s.pcrOf s.pil).extractLsb' 0 2).toNat < (e.extractLsb' 24 2).toNat
    (noPermit → s.locate kind addr apt = .fault .pageFault t vpn) ∧
    (¬noPermit → ringAbove → s.locate kind addr apt = .fault .ringViolation t vpn) ∧
    (¬noPermit → ¬ringAbove → permit = false →
      s.locate kind addr apt = .fault .protectionViolation t vpn) ∧
    (¬noPermit → ¬ringAbove → permit = true →
      ∃ pa : PhysAddr, s.locate kind addr apt = .physical pa (some (t, vpn)) ∧
        pa.extractLsb' 0 10 = addr.extractLsb' 0 10 ∧
        (s.sexi = true → pa.extractLsb' 10 14 = e.extractLsb' 0 14) ∧
        (s.sexi = false → pa.extractLsb' 10 9 = e.extractLsb' 0 9 ∧ pa.extractLsb' 19 5 = 0))

/-- R55, R57, R58: an access that reaches a word reads or writes that word and sets used, and written for
a write, in the entry of the table it went through, and changes nothing else. R59: at or above `PHYS_WORDS`
it is refused. A fetch by the interface of 00_scope.md R4(c) names its table; the CPU's own, `memFetch`, asks
for the normal one (R53). -/
def Obligations.SuccessfulAccess : Prop :=
  ∀ (s : State) (addr v : Word) (apt sel : Bool) (b : Byte) (pa : PhysAddr) (t : BitVec 2)
    (i : BitVec 6),
    s.memFetch addr = s.memFetchFrom addr false ∧
    (pa.toNat < s.physWords →
    (s.locate .read addr apt = .physical pa (some (t, i)) →
      s.memRead addr apt = .ok (s.phys pa) (s.setPte t i (s.pte t i ||| 0x08000000))) ∧
    (s.locate .fetch addr apt = .physical pa (some (t, i)) →
      s.memFetchFrom addr apt = .ok (s.phys pa) (s.setPte t i (s.pte t i ||| 0x08000000))) ∧
    (s.locate .write addr apt = .physical pa (some (t, i)) →
      s.memWrite addr apt v =
        .ok () { s.setPte t i (s.pte t i ||| 0x18000000) with mem := s.mem.writeWord pa v } ∧
      s.memWriteByte addr apt sel b =
        .ok () { s.setPte t i (s.pte t i ||| 0x18000000) with mem := s.mem.writeSelected pa sel b })) ∧
    (s.physWords ≤ pa.toNat → ∀ entry,
      (s.locate .read addr apt = .physical pa entry →
        s.memRead addr apt = .refused .beyondPhysWords) ∧
      (s.locate .fetch addr apt = .physical pa entry →
        s.memFetchFrom addr apt = .refused .beyondPhysWords) ∧
      (s.locate .write addr apt = .physical pa entry →
        s.memWrite addr apt v = .refused .beyondPhysWords ∧
        s.memWriteByte addr apt sel b = .refused .beyondPhysWords))

/-- R56, 10_state.md R20, 60_exceptions.md R323: a fault writes PGS from the access kind, the cause, the
table and the page, raises cause 3 or 2 on level 14, and changes nothing else: no memory, no marker bit,
no register. -/
def Obligations.FaultRecordsSyndrome : Prop :=
  ∀ (s : State) (addr v : Word) (apt sel : Bool) (b : Byte) (cause : MmuFault) (t : BitVec 2)
    (vpn : BitVec 6),
    let pm : Word := if cause = .ringViolation then 0 else 0o040000
    let place : Word := (t ++ vpn).zeroExtend 16
    let mask : Word := if cause = .pageFault then 0o10 else 0o4
    (s.locate .read addr apt = .fault cause t vpn →
      s.memRead addr apt = .abandoned ({ s with pgs := pm ||| place }.raiseInt 14 mask)) ∧
    (s.locate .write addr apt = .fault cause t vpn →
      s.memWrite addr apt v = .abandoned ({ s with pgs := pm ||| place }.raiseInt 14 mask) ∧
      s.memWriteByte addr apt sel b = .abandoned ({ s with pgs := pm ||| place }.raiseInt 14 mask)) ∧
    (s.locate .fetch addr apt = .fault cause t vpn →
      s.memFetchFrom addr apt =
        .abandoned ({ s with pgs := 0o100000 ||| pm ||| place }.raiseInt 14 mask))

/-- R60 to R62: an access in the visible window reads or writes the page-table entry its address names,
whatever its kind and table request, with no fault, no marker bit and no access to memory; a byte-select
write writes the word read with one byte replaced. -/
def Obligations.ShadowWindow : Prop :=
  ∀ (s : State) (apt sel : Bool) (v : Word) (b : Byte) (t : BitVec 2) (i : BitVec 6),
    let withByte (old : Word) : Word :=
      if sel then old.extractLsb' 8 8 ++ b else b ++ old.extractLsb' 0 8
    (s.poni = false ∨ s.ring = 3) →
    (s.sexi = false →
      let addr : Word := 0o177400 + (t ++ i).zeroExtend 16
      let e := s.pte t i
      let view : Word := e.extractLsb' 27 5 ++ e.extractLsb' 24 2 ++ e.extractLsb' 0 9
      s.memRead addr apt = .ok view s ∧ s.memFetchFrom addr apt = .ok view s ∧
      s.memWriteByte addr apt sel b = s.memWrite addr apt (withByte view) ∧
      ∃ e' : Pte, s.memWrite addr apt v = .ok () (s.setPte t i e') ∧
        e'.extractLsb' 27 5 = v.extractLsb' 11 5 ∧ e'.getLsbD 26 = false ∧
        e'.extractLsb' 24 2 = v.extractLsb' 9 2 ∧ e'.extractLsb' 14 10 = 0 ∧
        e'.extractLsb' 9 5 = 0 ∧ e'.extractLsb' 0 9 = v.extractLsb' 0 9) ∧
    (s.sexi = true →
      let addr : Word := 0o177000 + (t ++ i ++ 0#1).zeroExtend 16
      let e := s.pte t i
      s.memRead addr apt = .ok (e.extractLsb' 16 16) s ∧
      s.memRead (addr + 1) apt = .ok (e.extractLsb' 0 16) s ∧
      s.memFetchFrom addr apt = .ok (e.extractLsb' 16 16) s ∧
      s.memFetchFrom (addr + 1) apt = .ok (e.extractLsb' 0 16) s ∧
      s.memWriteByte addr apt sel b = s.memWrite addr apt (withByte (e.extractLsb' 16 16)) ∧
      s.memWriteByte (addr + 1) apt sel b =
        s.memWrite (addr + 1) apt (withByte (e.extractLsb' 0 16)) ∧
      s.memWrite addr apt v = .ok () (s.setPte t i (v ++ e.extractLsb' 0 16)) ∧
      s.memWrite (addr + 1) apt v = .ok () (s.setPte t i (e.extractLsb' 16 16 ++ v)))

/-- 40_memory_reference.md R100, R101: the eight effective-address modes, the table request of each, and
the one read of the indirect ones, whose fault ends the computation. -/
def Obligations.EffectiveAddressModes : Prop :=
  ∀ (s t : State) (disp : BitVec 8) (ptr : Word),
    let d : Word := disp.signExtend 16
    s.effectiveAddress .pRel disp = .ok (s.cur .p + d, false) s ∧
    s.effectiveAddress .bRel disp = .ok (s.cur .b + d, true) s ∧
    s.effectiveAddress .xIdx disp = .ok (s.cur .x + d, true) s ∧
    s.effectiveAddress .bxIdx disp = .ok (s.cur .b + d + s.cur .x, true) s ∧
    (s.memRead (s.cur .p + d) false = .ok ptr t →
      s.effectiveAddress .indP disp = .ok (ptr, true) t ∧
      s.effectiveAddress .indPX disp = .ok (ptr + s.cur .x, true) t) ∧
    (s.memRead (s.cur .b + d) true = .ok ptr t →
      s.effectiveAddress .indB disp = .ok (ptr, true) t ∧
      s.effectiveAddress .indBX disp = .ok (ptr + s.cur .x, true) t) ∧
    (s.memRead (s.cur .p + d) false = .abandoned t →
      s.effectiveAddress .indP disp = .abandoned t ∧ s.effectiveAddress .indPX disp = .abandoned t) ∧
    (s.memRead (s.cur .b + d) true = .abandoned t →
      s.effectiveAddress .indB disp = .abandoned t ∧ s.effectiveAddress .indBX disp = .abandoned t)

/-- R120, the document's end-to-end property: STA then LDA through the same B-relative address gives the
stored value back, whatever A became in between; with paging on and a page that the ring may read and
write, the entry ends with the used and written bits set. The word is installed; in the visible shadow window
no permit is asked for. -/
def Obligations.StoreThenLoadRoundTrips : Prop :=
  ∀ (s : State) (disp : BitVec 8) (junk : Word),
    let addr := s.cur .b + disp.signExtend 16
    let t := s.selectTable true
    let vpn : BitVec 6 := addr.extractLsb' 10 6
    let e := s.pte t vpn
    (s.poni = true → s.isShadow addr = false → e.getLsbD 31 = true ∧ e.getLsbD 30 = true ∧
      (e.extractLsb' 24 2).toNat ≤ s.ring.toNat) →
    (∀ pa entry, s.locate .write addr true = .physical pa entry → pa.toNat < s.physWords) →
    ∃ s₁ s₂, exec (.sta .bRel disp) s = .next s₁ ∧
      exec (.lda .bRel disp) (s₁.setCur .a junk) = .next s₂ ∧ s₂.cur .a = s.cur .a ∧
      (s.poni = true → s.isShadow addr = false →
        (s₂.pte t vpn).getLsbD 28 = true ∧ (s₂.pte t vpn).getLsbD 27 = true)

/-! ### Interrupts -/

/-- 60_exceptions.md R311: the one operation that requests an interrupt. -/
def Obligations.RaiseInterrupt : Prop :=
  ∀ (s : State) (level : Level) (mask : Word),
    (level = 14 → (s.iid ||| mask) &&& s.iie ≠ 0 →
      s.raiseInt level mask = { s with iid := s.iid ||| mask, pid := s.pid ||| 0o40000 }) ∧
    (level = 14 → (s.iid ||| mask) &&& s.iie = 0 →
      s.raiseInt level mask = { s with iid := s.iid ||| mask }) ∧
    (level ≠ 14 → s.raiseInt level mask = { s with pid := s.pid ||| (1#16 <<< level.toNat) })

/-- R312: PK is the highest level pending and enabled, 0 if none is. -/
def Obligations.PkIsHighestPendingEnabled : Prop :=
  ∀ s : State,
    (s.pid &&& s.pie = 0 → s.pk = 0) ∧
    (s.pid &&& s.pie ≠ 0 →
      (s.pid &&& s.pie).getLsbD s.pk.toNat = true ∧
      ∀ n, s.pk.toNat < n → (s.pid &&& s.pie).getLsbD n = false)

/-- R314, R315: the interrupt check switches the level when IONI is 1 and PK differs from PIL, up or
down; a switch writes PVL and PIL and nothing else. -/
def Obligations.LevelSwitch : Prop :=
  ∀ s : State,
    (s.ioni = true → s.pk ≠ s.pil → s.interruptCheck = { s with pvl := s.pil, pil := s.pk }) ∧
    (s.ioni = false ∨ s.pk = s.pil → s.interruptCheck = s)

/-- R80, R314, 30_encoding.md R82: in RUN, when it is the CPU's turn, a step fetches the word at P, runs
the instruction it decodes to, and makes the interrupt check; a word that is no instruction raises cause
4 and leaves P; a fetch that faults executes nothing; a fetch that is refused refuses the step. The turn is
taken from the script first. -/
def Obligations.StepRunsDecodedInstruction : Prop :=
  ∀ (s s₁ : State) (w : Word), s.cpusTurn → s.runMode = .run →
    (s.turnTaken.memFetch (s.cur .p) = .ok w s₁ →
      (∀ i, decode w = .ok i → step s = afterCheck (exec i s₁)) ∧
      (∀ e, decode w = .error e → step s = .next (s₁.raiseInt 14 0o20).interruptCheck)) ∧
    (s.turnTaken.memFetch (s.cur .p) = .abandoned s₁ → step s = .next s₁.interruptCheck) ∧
    (∀ r, s.turnTaken.memFetch (s.cur .p) = .refused r → step s = .refused r)

/-- R326, R331: with paging on, in ring 0 or 1, a privileged instruction does nothing but raise cause 6. -/
def Obligations.PrivilegedInstructionTraps : Prop :=
  ∀ (i : Instr) (s : State), privilegedInstr i = true → s.poni = true → s.ring.toNat < 2 →
    exec i s = .next (s.raiseInt 14 0o100)

/-- 46_system.md R290, 30_encoding.md R93: an unimplemented instruction sets RunMode to SHUTDOWN and
changes nothing else, whatever the ring; SHUTDOWN is terminal. That a step in SHUTDOWN is a fault, whoever's
turn it is, is the model's (log 9). -/
def Obligations.UnimplementedHalts : Prop :=
  (∀ (i : Instr) (s : State), unimplementedInstr i = true →
    exec i s = .next { s with runMode := .shutdown }) ∧
  (∀ s : State, s.runMode = .shutdown → step s = .fault .shutdown)

/-- 60_exceptions.md R340, 10_state.md R21, when it is the CPU's turn: STOP keeps all state; STEP takes
the step that RUN would take and then stops, unless that step ended in SHUTDOWN, which stays. Two clauses are
the model's (log 9): that STOP takes a step at all, and that SHUTDOWN wins over the STOP of a STEP (the order of
the two writes of RunMode). -/
def Obligations.RunModes : Prop :=
  ∀ s : State, s.cpusTurn →
    (s.runMode = .stop → step s = .next s.turnTaken) ∧
    (∀ t, s.runMode = .step → cpuStep s.turnTaken = .next t →
      step s = .next (if t.runMode = .shutdown then t else { t with runMode := .stop })) ∧
    (s.runMode = .run → step s = cpuStep s.turnTaken)

/-- 60_exceptions.md R335, R336, 00_scope.md R4, R9: an action of a device or of the host is one step of its
own: raising an interrupt; a device interrupt, which appends its entry to the ident chain and raises its level
in one action; a physical write; the translated read, write and fetch of loaders, each through the table it asks
for; the start address, before the start;
the run mode; what an external register presents. The script that orders the turns and the run modes in which
each acts are the model's (logs 8 and 19). -/
def Obligations.DeviceActionsAreSteps : Prop :=
  ∀ (s : State) (rest : List Turn), s.runMode ≠ .shutdown →
    let q := { s with turns := rest }
    let acts (a : EnvAction) (r : Host.Outcome State Fault Refusal) : Prop :=
      s.turns = .env a :: rest → step s = r
    (∀ level mask, acts (.raiseInterrupt level mask) (.next (q.raiseInt level mask))) ∧
    (∀ level code caller, acts (.deviceInterrupt level code caller)
      (.next ({ q with identChain := s.identChain ++ [IdentEntry.mk level code caller] }.raiseInt
        level 0))) ∧
    (∀ level code caller, level ≠ 14 → acts (.deviceInterrupt level code caller)
      (.next { q with
        identChain := s.identChain ++ [IdentEntry.mk level code caller]
        pid := s.pid ||| (1#16 <<< level.toNat) })) ∧
    (∀ pa v, pa.toNat < s.physWords →
      acts (.physWrite pa v) (.next { q with mem := s.mem.writeWord pa v })) ∧
    (∀ pa v, s.physWords ≤ pa.toNat → acts (.physWrite pa v) (.refused .beyondPhysWords)) ∧
    (∀ addr apt, acts (.memRead addr apt) (endsTurn (q.memRead addr apt))) ∧
    (∀ addr apt v, acts (.memWrite addr apt v) (endsTurn (q.memWrite addr apt v))) ∧
    (∀ addr apt, acts (.memFetch addr apt) (endsTurn (q.memFetchFrom addr apt))) ∧
    (∀ v, s.runMode = .stop → acts (.setStartAddress v) (.next (q.setReg 0 .p v))) ∧
    (∀ v, s.runMode ≠ .stop → acts (.setStartAddress v) (.next q)) ∧
    (∀ m, acts (.setRunMode m) (.next { q with runMode := m })) ∧
    (∀ n v, acts (.setExternal n v) (.next { q with ext := s.ext.set n.toNat v n.isLt }))

/-- R314, 10_state.md R13 (PIL is written by the level switch only), R16: a step of the CPU changes the
current level only with the interrupt system on, to PK, and leaves the old level in PVL; it changes PVL
only so, in a step that does change the level. -/
def Obligations.LevelChangesOnlyBySwitch : Prop :=
  ∀ s t : State, s.cpusTurn → step s = .next t →
    (t.pil = s.pil ∧ t.pvl = s.pvl) ∨
    (t.ioni = true ∧ t.pil ≠ s.pil ∧ t.pil = t.pk ∧ t.pvl = s.pil)

/-- 10_state.md R21, 60_exceptions.md R322: a step of the CPU reaches SHUTDOWN only by an unimplemented
instruction, fetched or executed by an EXR. -/
def Obligations.OnlyUnimplementedShutsDown : Prop :=
  ∀ s t : State, s.cpusTurn → step s = .next t → t.runMode = .shutdown →
    ∃ w s₁ i j, s.turnTaken.memFetch (s.cur .p) = .ok w s₁ ∧ decode w = .ok i ∧ s₁.executed i = some j ∧
      unimplementedInstr j = true

/-! ### Memory-reference instructions -/

/-- 40_memory_reference.md R104 to R107, R116, R118: STZ, STA, STT, STX, STD and STF store their registers
at the effective address and the words after it, then `next`; where a later write faults the earlier ones
stay and P keeps the instruction's address. -/
def Obligations.StoresWriteTheirRegisters : Prop :=
  ∀ (s s₁ t : State) (mode : Mode) (disp : BitVec 8) (ea : Word) (apt : Bool),
    decode (mrWord 0o000000 mode disp) = .ok (.stz mode disp) ∧
    decode (mrWord 0o004000 mode disp) = .ok (.sta mode disp) ∧
    decode (mrWord 0o010000 mode disp) = .ok (.stt mode disp) ∧
    decode (mrWord 0o014000 mode disp) = .ok (.stx mode disp) ∧
    decode (mrWord 0o020000 mode disp) = .ok (.std mode disp) ∧
    decode (mrWord 0o030000 mode disp) = .ok (.stf mode disp) ∧
    (s.effectiveAddress mode disp = .ok (ea, apt) s₁ →
      (s₁.memWrite ea apt 0 = .ok () t →
        exec (.stz mode disp) s = .next (t.jump (s.cur .p + 1))) ∧
      (s₁.memWrite ea apt (s.cur .a) = .ok () t →
        exec (.sta mode disp) s = .next (t.jump (s.cur .p + 1))) ∧
      (s₁.memWrite ea apt (s.cur .t) = .ok () t →
        exec (.stt mode disp) s = .next (t.jump (s.cur .p + 1))) ∧
      (s₁.memWrite ea apt (s.cur .x) = .ok () t →
        exec (.stx mode disp) s = .next (t.jump (s.cur .p + 1))) ∧
      (∀ u, s₁.memWrite ea apt (s.cur .a) = .ok () u →
        (u.memWrite (ea + 1) apt (s.cur .d) = .ok () t →
          exec (.std mode disp) s = .next (t.jump (s.cur .p + 1))) ∧
        (u.memWrite (ea + 1) apt (s.cur .d) = .abandoned t →
          exec (.std mode disp) s = .next t ∧ t.mem = u.mem ∧ t.cur .p = s.cur .p)) ∧
      (∀ u, s₁.memWrite ea apt (s.cur .t) = .ok () u →
        (u.memWrite (ea + 1) apt (s.cur .a) = .abandoned t →
          exec (.stf mode disp) s = .next t ∧ t.mem = u.mem ∧ t.cur .p = s.cur .p) ∧
        (∀ v, u.memWrite (ea + 1) apt (s.cur .a) = .ok () v →
          (v.memWrite (ea + 2) apt (s.cur .d) = .ok () t →
            exec (.stf mode disp) s = .next (t.jump (s.cur .p + 1))) ∧
          (v.memWrite (ea + 2) apt (s.cur .d) = .abandoned t →
            exec (.stf mode disp) s = .next t ∧ t.mem = v.mem ∧ t.cur .p = s.cur .p))))

/-- R108 to R110, R117, R119: LDA, LDT, LDX, LDD and LDF load their registers from the effective address
and the words after it, then `next`; where a later read faults the registers already loaded keep the new
values and P keeps the instruction's address. -/
def Obligations.LoadsFillTheirRegisters : Prop :=
  ∀ (s s₁ s₂ s₃ t : State) (mode : Mode) (disp : BitVec 8) (ea v₀ v₁ v₂ : Word) (apt : Bool),
    decode (mrWord 0o044000 mode disp) = .ok (.lda mode disp) ∧
    decode (mrWord 0o050000 mode disp) = .ok (.ldt mode disp) ∧
    decode (mrWord 0o054000 mode disp) = .ok (.ldx mode disp) ∧
    decode (mrWord 0o024000 mode disp) = .ok (.ldd mode disp) ∧
    decode (mrWord 0o034000 mode disp) = .ok (.ldf mode disp) ∧
    (s.effectiveAddress mode disp = .ok (ea, apt) s₁ → s₁.memRead ea apt = .ok v₀ s₂ →
      exec (.lda mode disp) s = .next ((s₂.setCur .a v₀).jump (s.cur .p + 1)) ∧
      exec (.ldt mode disp) s = .next ((s₂.setCur .t v₀).jump (s.cur .p + 1)) ∧
      exec (.ldx mode disp) s = .next ((s₂.setCur .x v₀).jump (s.cur .p + 1)) ∧
      (s₂.memRead (ea + 1) apt = .ok v₁ s₃ →
        exec (.ldd mode disp) s =
          .next (((s₃.setCur .a v₀).setCur .d v₁).jump (s.cur .p + 1)) ∧
        (s₃.memRead (ea + 2) apt = .ok v₂ t →
          exec (.ldf mode disp) s =
            .next ((((t.setCur .t v₀).setCur .a v₁).setCur .d v₂).jump (s.cur .p + 1))) ∧
        (s₃.memRead (ea + 2) apt = .abandoned t →
          exec (.ldf mode disp) s = .next ((t.setCur .t v₀).setCur .a v₁))) ∧
      (s₂.memRead (ea + 1) apt = .abandoned t →
        exec (.ldd mode disp) s = .next (t.setCur .a v₀) ∧
        exec (.ldf mode disp) s = .next (t.setCur .t v₀)))

/-- R111 to R114 and the adder of 42_register_ops.md R150: ADD and SUB put the sum of A and the operand,
or of A, the operand's complement and 1, into A with C, Q and O; AND and ORA write A alone. After SUB, A is
the difference and C says no borrow. -/
def Obligations.ArithmeticAndLogicOnA : Prop :=
  ∀ (s s₁ t : State) (mode : Mode) (disp : BitVec 8) (ea m : Word) (apt : Bool),
    decode (mrWord 0o060000 mode disp) = .ok (.add mode disp) ∧
    decode (mrWord 0o064000 mode disp) = .ok (.sub mode disp) ∧
    decode (mrWord 0o070000 mode disp) = .ok (.and mode disp) ∧
    decode (mrWord 0o074000 mode disp) = .ok (.ora mode disp) ∧
    (s.effectiveAddress mode disp = .ok (ea, apt) s₁ → s₁.memRead ea apt = .ok m t →
      exec (.add mode disp) s = .next (afterAdd t .a m false) ∧
      exec (.sub mode disp) s = .next (afterAdd t .a (~~~m) true) ∧
      exec (.and mode disp) s = .next ((t.setCur .a (s.cur .a &&& m)).jump (s.cur .p + 1)) ∧
      exec (.ora mode disp) s = .next ((t.setCur .a (s.cur .a ||| m)).jump (s.cur .p + 1)) ∧
      (afterAdd t .a (~~~m) true).cur .a = s.cur .a - m ∧
      (afterAdd t .a (~~~m) true).flag .c = decide (m ≤ s.cur .a))

/-- R150: the adder as every instruction uses it: the sum modulo 2^16, C the bit 16 of the 17-bit sum, Q
the overflow, O set by an overflow and kept otherwise, the other flags kept; and the overflow is that of the
signed sum. -/
def Obligations.AdderWritesCarryAndOverflow : Prop :=
  ∀ (s : State) (a b : Word) (cin : Bool),
    addSum a b cin = sum16 a b cin ∧
    (s.addFlags a b cin).flag .c = decide (a.toNat + b.toNat + cin.toNat > 0xFFFF) ∧
    (s.addFlags a b cin).flag .q = sumOverflows a b cin ∧
    (s.addFlags a b cin).flag .o = (s.flag .o || sumOverflows a b cin) ∧
    (∀ g, g ≠ .c → g ≠ .q → g ≠ .o → (s.addFlags a b cin).flag g = s.flag g) ∧
    (∀ r, (s.addFlags a b cin).cur r = s.cur r) ∧
    (sumOverflows a b cin = true ↔
      a.toInt + b.toInt + cin.toNat < -32768 ∨ 32767 < a.toInt + b.toInt + cin.toNat)

/-- R115: MIN adds 1 to the operand word in memory and skips if it became 0; a faulted read or write leaves
memory, and P at the instruction. -/
def Obligations.MinIncrementsAndSkips : Prop :=
  ∀ (s s₁ s₂ t : State) (mode : Mode) (disp : BitVec 8) (ea m : Word) (apt : Bool),
    decode (mrWord 0o040000 mode disp) = .ok (.min mode disp) ∧
    (s.effectiveAddress mode disp = .ok (ea, apt) s₁ →
      (s₁.memRead ea apt = .ok m s₂ →
        (s₂.memWrite ea apt (m + 1) = .ok () t →
          exec (.min mode disp) s = .next (t.jump (s.cur .p + if m = 0o177777 then 2 else 1))) ∧
        (s₂.memWrite ea apt (m + 1) = .abandoned t →
          exec (.min mode disp) s = .next t ∧ t.mem = s.mem ∧ t.cur .p = s.cur .p)) ∧
      (s₁.memRead ea apt = .abandoned t →
        exec (.min mode disp) s = .next t ∧ t.mem = s.mem ∧ t.cur .p = s.cur .p))

/-- R102, R103, 20_memory.md R56, 60_exceptions.md R317: a fault of the pointer read, for all 23 instructions
of format MR, or of the first data access, for the 21 of them that make one (JMP and JPL make none), ends the
instruction in the state the fault leaves, with every register, flag and byte of memory as before. -/
def Obligations.FaultedOperandAbandons : Prop :=
  ∀ (s t : State) (mode : Mode) (disp : BitVec 8),
    (∀ p ∈ memoryReference, s.effectiveAddress mode disp = .abandoned t →
      exec (p.2 mode disp) s = .next t ∧ t.banks = s.banks ∧ t.mem = s.mem) ∧
    (∀ i ∈ [Instr.lda mode disp, .ldt mode disp, .ldx mode disp, .ldd mode disp, .ldf mode disp,
        .add mode disp, .sub mode disp, .and mode disp, .ora mode disp, .fad mode disp,
        .fsb mode disp, .fmu mode disp, .fdv mode disp, .mpy mode disp, .min mode disp],
      s.readOperand mode disp = .abandoned t →
        exec i s = .next t ∧ t.banks = s.banks ∧ t.mem = s.mem) ∧
    (∀ p ∈ [(Instr.stz mode disp, (0 : Word)), (.sta mode disp, s.cur .a), (.stt mode disp, s.cur .t),
        (.stx mode disp, s.cur .x), (.std mode disp, s.cur .a), (.stf mode disp, s.cur .t)],
      s.writeOperand mode disp p.2 = .abandoned t →
        exec p.1 s = .next t ∧ t.banks = s.banks ∧ t.mem = s.mem)

/-! ### Multiply, divide, bytes -/

/-- 44_muldiv_byte.md R200, R201: MPY puts the low 16 bits of the signed product into A and sets Q, and O,
when its magnitude exceeds 32767; RMPY puts the 32-bit product of two registers into A and D, never
overflows, clears Q and keeps O. -/
def Obligations.MultiplyInstructions : Prop :=
  ∀ (s s₁ t : State) (mode : Mode) (disp : BitVec 8) (ea m : Word) (apt : Bool) (sr dr : RegField),
    decode (mrWord 0o120000 mode disp) = .ok (.mpy mode disp) ∧
    decode (regsWord 0o141200 sr dr) = .ok (.rmpy sr dr) ∧
    (s.effectiveAddress mode disp = .ok (ea, apt) s₁ → s₁.memRead ea apt = .ok m t →
      let p := (s.cur .a).toInt * m.toInt
      let tooBig := decide (32767 < p.natAbs)
      exec (.mpy mode disp) s =
        .next ((((t.setFlag .q tooBig).setFlag .o (s.flag .o || tooBig)).setCur .a
          (BitVec.ofInt 16 p)).jump (s.cur .p + 1))) ∧
    (∀ p, p = BitVec.ofInt 32 ((s.fieldValue sr).toInt * (s.fieldValue dr).toInt) →
      exec (.rmpy sr dr) s =
        .next ((((s.setFlag .q false).setCur .a (p.extractLsb' 16 16)).setCur .d
          (p.extractLsb' 0 16)).jump (s.cur .p + 1)))

/-- R202, R203: RDIV divides A:D by a register, the quotient truncated toward zero to A, the remainder,
which has the sign of the dividend, to D, and writes no flag. With divisor 0 the parameter DivZero decides: how it
does is the model's choice (log 5), and this holds for every value of it. -/
def Obligations.DivideTruncates : Prop :=
  ∀ (s : State) (sr : RegField) (ignored : BitVec 3),
    let n := (s.cur .a ++ s.cur .d).toInt
    let d := (s.fieldValue sr).toInt
    decode (regsWord 0o141600 sr none ||| ignored.zeroExtend 16) = .ok (.rdiv sr) ∧
    (d ≠ 0 → ∃ q r : Int, n = q * d + r ∧ r.natAbs < d.natAbs ∧ (r ≠ 0 → (r < 0 ↔ n < 0)) ∧
      exec (.rdiv sr) s =
        .next (((s.setCur .a (BitVec.ofInt 16 q)).setCur .d (BitVec.ofInt 16 r)).jump
          (s.cur .p + 1))) ∧
    (d = 0 → exec (.rdiv sr) s =
      match Config.divZero (s.cur .a) (s.cur .d) with
      | .refuse => .refused .divZero
      | .result q r => .next (((s.setCur .a q).setCur .d r).jump (s.cur .p + 1)))

/-- R204, R207, R208, R210, R211: MIX3, LBYT, SBYT, TSET and RDUS; a faulted access abandons them, TSET
with T loaded if it is the write. -/
def Obligations.ByteAndSetInstructions : Prop :=
  ∀ (s s₁ t : State) (m : Word) (ignored : BitVec 6),
    let index := s.cur .x
    let addr := s.cur .t + (index >>> 1)
    let sel := index.getLsbD 0
    decode (0o143200 ||| ignored.zeroExtend 16) = .ok .mix3 ∧
    decode (0o142200 ||| ignored.zeroExtend 16) = .ok .lbyt ∧
    decode (0o142600 ||| ignored.zeroExtend 16) = .ok .sbyt ∧
    decode 0o140123 = .ok .tset ∧ decode 0o140127 = .ok .rdus ∧
    exec .mix3 s = .next ((s.setCur .x ((s.cur .a - 1) * 3)).jump (s.cur .p + 1)) ∧
    (s.memRead addr true = .ok m t →
      exec .lbyt s =
        .next ((t.setCur .a
          ((if sel then m.extractLsb' 0 8 else m.extractLsb' 8 8).zeroExtend 16)).jump
            (s.cur .p + 1))) ∧
    (s.memRead addr true = .abandoned t → exec .lbyt s = .next t) ∧
    (s.memWriteByte addr true sel ((s.cur .a).extractLsb' 0 8) = .ok () t →
      exec .sbyt s = .next (t.jump (s.cur .p + 1))) ∧
    (s.memWriteByte addr true sel ((s.cur .a).extractLsb' 0 8) = .abandoned t →
      exec .sbyt s = .next t) ∧
    (s.memRead index true = .ok m s₁ →
      exec .rdus s = .next ((s₁.setCur .t m).jump (s.cur .p + 1)) ∧
      ((s₁.setCur .t m).memWrite index true 0o177777 = .ok () t →
        exec .tset s = .next (t.jump (s.cur .p + 1))) ∧
      ((s₁.setCur .t m).memWrite index true 0o177777 = .abandoned t →
        exec .tset s = .next t ∧ t.cur .t = m)) ∧
    (s.memRead index true = .abandoned t → exec .rdus s = .next t ∧ exec .tset s = .next t)

/-! ### Control transfer -/

/-- 41_control_transfer.md R130 to R139: JMP goes to the effective address; JPL leaves the address after it
in L and goes there; a fault of the pointer read leaves P and L. The eight conditional jumps go to `P + d`
if the condition holds, else to the next instruction; JPC and JNC increment X first and test the
incremented X. -/
def Obligations.Jumps : Prop :=
  ∀ (s t : State) (mode : Mode) (disp : BitVec 8) (ea : Word) (apt : Bool),
    let go (u : State) (c : Prop) [Decidable c] : Host.Outcome State Fault Refusal :=
      .next (u.jump (s.cur .p + if c then disp.signExtend 16 else 1))
    let x := s.cur .x + 1
    decode (mrWord 0o124000 mode disp) = .ok (.jmp mode disp) ∧
    decode (mrWord 0o134000 mode disp) = .ok (.jpl mode disp) ∧
    decode (lowWord 0o130000 disp) = .ok (.jap disp) ∧
    decode (lowWord 0o130400 disp) = .ok (.jan disp) ∧
    decode (lowWord 0o131000 disp) = .ok (.jaz disp) ∧
    decode (lowWord 0o131400 disp) = .ok (.jaf disp) ∧
    decode (lowWord 0o132000 disp) = .ok (.jpc disp) ∧
    decode (lowWord 0o132400 disp) = .ok (.jnc disp) ∧
    decode (lowWord 0o133000 disp) = .ok (.jxz disp) ∧
    decode (lowWord 0o133400 disp) = .ok (.jxn disp) ∧
    (s.effectiveAddress mode disp = .ok (ea, apt) t →
      exec (.jmp mode disp) s = .next (t.jump ea) ∧
      exec (.jpl mode disp) s = .next ((t.setCur .l (s.cur .p + 1)).jump ea)) ∧
    (s.effectiveAddress mode disp = .abandoned t →
      exec (.jmp mode disp) s = .next t ∧ exec (.jpl mode disp) s = .next t ∧
      t.cur .p = s.cur .p ∧ t.cur .l = s.cur .l) ∧
    exec (.jap disp) s = go s (0 ≤ (s.cur .a).toInt) ∧
    exec (.jan disp) s = go s ((s.cur .a).toInt < 0) ∧
    exec (.jaz disp) s = go s (s.cur .a = 0) ∧
    exec (.jaf disp) s = go s (s.cur .a ≠ 0) ∧
    exec (.jpc disp) s = go (s.setCur .x x) (0 ≤ x.toInt) ∧
    exec (.jnc disp) s = go (s.setCur .x x) (x.toInt < 0) ∧
    exec (.jxz disp) s = go s (s.cur .x = 0) ∧
    exec (.jxn disp) s = go s ((s.cur .x).toInt < 0)

/-- R141 to R148: each skip condition as the comparison of the two operands it stands for: equal, sign of
the wrapped difference, signed, unsigned. Nothing but P is written. -/
def Obligations.SkipsCompareRegisters : Prop :=
  ∀ (s : State) (sr dr : RegField),
    let d := s.fieldValue dr
    let v := s.fieldValue sr
    let go (c : Prop) [Decidable c] : Host.Outcome State Fault Refusal :=
      .next (s.jump (s.cur .p + if c then 2 else 1))
    decode (regsWord 0o140000 sr dr) = .ok (.skpEql sr dr) ∧
    decode (regsWord 0o140400 sr dr) = .ok (.skpGeq sr dr) ∧
    decode (regsWord 0o141000 sr dr) = .ok (.skpGre sr dr) ∧
    decode (regsWord 0o141400 sr dr) = .ok (.skpMgre sr dr) ∧
    decode (regsWord 0o142000 sr dr) = .ok (.skpUeq sr dr) ∧
    decode (regsWord 0o142400 sr dr) = .ok (.skpLss sr dr) ∧
    decode (regsWord 0o143000 sr dr) = .ok (.skpLst sr dr) ∧
    decode (regsWord 0o143400 sr dr) = .ok (.skpMlst sr dr) ∧
    exec (.skpEql sr dr) s = go (d = v) ∧
    exec (.skpGeq sr dr) s = go ((d - v).getLsbD 15 = false) ∧
    exec (.skpGre sr dr) s = go (v.toInt ≤ d.toInt) ∧
    exec (.skpMgre sr dr) s = go (v.toNat ≤ d.toNat) ∧
    exec (.skpUeq sr dr) s = go (d ≠ v) ∧
    exec (.skpLss sr dr) s = go ((d - v).getLsbD 15 = true) ∧
    exec (.skpLst sr dr) s = go (d.toInt < v.toInt) ∧
    exec (.skpMlst sr dr) s = go (d.toNat < v.toNat)

/-- R149: EXR runs the word in the register as if it were fetched at the EXR's own address, an SAA among
them; an EXR in the register sets Z and continues; an illegal word raises cause 4. -/
def Obligations.ExecuteRegister : Prop :=
  ∀ (s : State) (sr : RegField) (ignored : BitVec 3),
    let v := s.fieldValue sr
    decode (regsWord 0o140600 sr none ||| ignored.zeroExtend 16) = .ok (.exr sr) ∧
    (v &&& 0o177700 = 0o140600 →
      exec (.exr sr) s = .next ((s.setFlag .z true).jump (s.cur .p + 1))) ∧
    (v &&& 0o177700 ≠ 0o140600 →
      (∀ i, decode v = .ok i → exec (.exr sr) s = exec i s) ∧
      (∀ e, decode v = .error e → exec (.exr sr) s = .next (s.raiseInt 14 0o20)) ∧
      (∀ arg, v = lowWord 0o170400 arg →
        exec (.exr sr) s = .next ((s.setCur .a (arg.signExtend 16)).jump (s.cur .p + 1))))

/-! ### Register operations, argument and bit instructions, shifts -/

/-- 42_register_ops.md R151 to R156: SWAP, RAND, REXO, RORA and RADD with their modifiers. A destination
P is a jump, code 0 discards, and SWAP's own source register receives the destination operand first. -/
def Obligations.RegisterOperations : Prop :=
  ∀ (s : State) (adc ad1 cm1 cld : Bool) (sr dr : RegField),
    let src := if cm1 then ~~~s.fieldValue sr else s.fieldValue sr
    let dst := if cld then 0 else s.fieldValue dr
    let cin := ad1 || (adc && s.flag .c)
    let done (u : State) (v : Word) : Host.Outcome State Fault Refusal :=
      .next (endUnlessP s (writeField u dr v) (dr == some .p))
    decode (roWord 0o144000 cm1 cld sr dr) = .ok (.swap cm1 cld sr dr) ∧
    decode (roWord 0o144400 cm1 cld sr dr) = .ok (.rand cm1 cld sr dr) ∧
    decode (roWord 0o145000 cm1 cld sr dr) = .ok (.rexo cm1 cld sr dr) ∧
    decode (roWord 0o145400 cm1 cld sr dr) = .ok (.rora cm1 cld sr dr) ∧
    decode (roWord (0o146000 ||| (if adc then 0o1000 else 0) ||| (if ad1 then 0o400 else 0))
      cm1 cld sr dr) = .ok (.radd adc ad1 cm1 cld sr dr) ∧
    exec (.swap cm1 cld sr dr) s =
      .next (endUnlessP s (writeField (writeField s sr dst) dr src)
        (sr == some .p || dr == some .p)) ∧
    exec (.rand cm1 cld sr dr) s = done s (dst &&& src) ∧
    exec (.rexo cm1 cld sr dr) s = done s (dst ^^^ src) ∧
    exec (.rora cm1 cld sr dr) s = done s (dst ||| src) ∧
    exec (.radd adc ad1 cm1 cld sr dr) s =
      done (setCQO s (decide (2 ^ 16 ≤ sum17 dst src cin)) (sumOverflows dst src cin))
        (sum16 dst src cin)

/-- R160 to R168: SAB, SAA, SAT and SAX set a register to the sign-extended argument and write no flag;
AAB, AAA, AAT and AAX add it through the adder. -/
def Obligations.ArgumentInstructions : Prop :=
  ∀ (s : State) (arg : BitVec 8),
    let v : Word := arg.signExtend 16
    let p := s.cur .p + 1
    decode (lowWord 0o170000 arg) = .ok (.sab arg) ∧ decode (lowWord 0o170400 arg) = .ok (.saa arg) ∧
    decode (lowWord 0o171000 arg) = .ok (.sat arg) ∧ decode (lowWord 0o171400 arg) = .ok (.sax arg) ∧
    decode (lowWord 0o172000 arg) = .ok (.aab arg) ∧ decode (lowWord 0o172400 arg) = .ok (.aaa arg) ∧
    decode (lowWord 0o173000 arg) = .ok (.aat arg) ∧ decode (lowWord 0o173400 arg) = .ok (.aax arg) ∧
    exec (.sab arg) s = .next ((s.setCur .b v).jump p) ∧
    exec (.saa arg) s = .next ((s.setCur .a v).jump p) ∧
    exec (.sat arg) s = .next ((s.setCur .t v).jump p) ∧
    exec (.sax arg) s = .next ((s.setCur .x v).jump p) ∧
    exec (.aab arg) s = .next (afterAdd s .b v false) ∧
    exec (.aaa arg) s = .next (afterAdd s .a v false) ∧
    exec (.aat arg) s = .next (afterAdd s .t v false) ∧
    exec (.aax arg) s = .next (afterAdd s .x v false)

/-- R170 to R178: the operand bit of a register, or of STS where bits 15:8 can be read and not written;
BSET writes it, BSKP skips on it; a write to a bit of P is a jump to the modified value. -/
def Obligations.BitSetAndSkip : Prop :=
  ∀ (s : State) (n : BitVec 4) (dr : RegField),
    let bn := n.toNat
    let bit := s.readBit bn dr
    let k := s.flag .k
    let set (v : Bool) : Host.Outcome State Fault Refusal :=
      .next (endUnlessP s (s.writeBit bn dr v) (dr == some .p))
    let go (c : Bool) : Host.Outcome State Fault Refusal :=
      .next (s.jump (s.cur .p + if c then 2 else 1))
    (∀ v, s.writeBit bn none v = if bn < 8 then
      s.setCurFlags ((s.curFlags &&& ~~~(1#8 <<< bn)) ||| ((BitVec.ofBool v).zeroExtend 8 <<< bn))
      else s) ∧
    (∀ r v, s.writeBit bn (some r) v = s.setCur r
      ((s.cur r &&& ~~~(1#16 <<< bn)) ||| ((BitVec.ofBool v).zeroExtend 16 <<< bn))) ∧
    s.readBit bn none = (s.sts s.pil).getLsbD bn ∧
    (∀ r, s.readBit bn (some r) = (s.cur r).getLsbD bn) ∧
    decode (boWord 0o174000 n dr) = .ok (.bsetZro bn dr) ∧
    decode (boWord 0o174200 n dr) = .ok (.bsetOne bn dr) ∧
    decode (boWord 0o174400 n dr) = .ok (.bsetBcm bn dr) ∧
    decode (boWord 0o174600 n dr) = .ok (.bsetBac bn dr) ∧
    decode (boWord 0o175000 n dr) = .ok (.bskpZro bn dr) ∧
    decode (boWord 0o175200 n dr) = .ok (.bskpOne bn dr) ∧
    decode (boWord 0o175400 n dr) = .ok (.bskpBcm bn dr) ∧
    decode (boWord 0o175600 n dr) = .ok (.bskpBac bn dr) ∧
    exec (.bsetZro bn dr) s = set false ∧ exec (.bsetOne bn dr) s = set true ∧
    exec (.bsetBcm bn dr) s = set (!bit) ∧ exec (.bsetBac bn dr) s = set k ∧
    exec (.bskpZro bn dr) s = go (!bit) ∧ exec (.bskpOne bn dr) s = go bit ∧
    exec (.bskpBcm bn dr) s = go (bit != k) ∧ exec (.bskpBac bn dr) s = go (bit == k)

/-- R179 to R186: BSTC and BSTA write the operand bit from K and then set or clear K; the other six write
K from K and the operand bit. -/
def Obligations.BitAccumulatorInstructions : Prop :=
  ∀ (s : State) (n : BitVec 4) (dr : RegField),
    let bn := n.toNat
    let bit := s.readBit bn dr
    let k := s.flag .k
    let p := s.cur .p + 1
    decode (boWord 0o176000 n dr) = .ok (.bstc bn dr) ∧
    decode (boWord 0o176200 n dr) = .ok (.bsta bn dr) ∧
    decode (boWord 0o176400 n dr) = .ok (.bldc bn dr) ∧
    decode (boWord 0o176600 n dr) = .ok (.blda bn dr) ∧
    decode (boWord 0o177000 n dr) = .ok (.banc bn dr) ∧
    decode (boWord 0o177200 n dr) = .ok (.band bn dr) ∧
    decode (boWord 0o177400 n dr) = .ok (.borc bn dr) ∧
    decode (boWord 0o177600 n dr) = .ok (.bora bn dr) ∧
    exec (.bstc bn dr) s =
      .next (endUnlessP s ((s.writeBit bn dr (!k)).setFlag .k true) (dr == some .p)) ∧
    exec (.bsta bn dr) s =
      .next (endUnlessP s ((s.writeBit bn dr k).setFlag .k false) (dr == some .p)) ∧
    exec (.bldc bn dr) s = .next ((s.setFlag .k (!bit)).jump p) ∧
    exec (.blda bn dr) s = .next ((s.setFlag .k bit).jump p) ∧
    exec (.banc bn dr) s = .next ((s.setFlag .k (k && !bit)).jump p) ∧
    exec (.band bn dr) s = .next ((s.setFlag .k (k && bit)).jump p) ∧
    exec (.borc bn dr) s = .next ((s.setFlag .k (k || !bit)).jump p) ∧
    exec (.bora bn dr) s = .next ((s.setFlag .k (k || bit)).jump p)

/-- 43_shift.md R191 to R194: SHT, SHD, SHA and SAD replace their register, or A and D as one, by what the
engine makes of it and M, write M, and nothing else. -/
def Obligations.ShiftInstructions : Prop :=
  ∀ (s : State) (type : ShiftType) (count : BitVec 6),
    let n := count.toInt
    let word (opcode : Word) : Word := opcode ||| (bitsOfShiftType type ++ 0#3 ++ count).zeroExtend 16
    let done (u : State) (m : Bool) : Host.Outcome State Fault Refusal :=
      .next ((u.setFlag .m m).jump (s.cur .p + 1))
    let engine (r : Reg) := shiftEngine type n (s.cur r) (s.flag .m)
    let double := shiftEngine type n (s.cur .a ++ s.cur .d) (s.flag .m)
    decode (word 0o154000) = .ok (.sht type n) ∧ decode (word 0o154200) = .ok (.shd type n) ∧
    decode (word 0o154400) = .ok (.sha type n) ∧ decode (word 0o154600) = .ok (.sad type n) ∧
    exec (.sht type n) s = done (s.setCur .t (engine .t).1) (engine .t).2 ∧
    exec (.shd type n) s = done (s.setCur .d (engine .d).1) (engine .d).2 ∧
    exec (.sha type n) s = done (s.setCur .a (engine .a).1) (engine .a).2 ∧
    exec (.sad type n) s =
      done ((s.setCur .a (double.1.extractLsb' 16 16)).setCur .d (double.1.extractLsb' 0 16))
        double.2

/-- R190: what the shift engine computes, for both operand widths: plain and ZIN shift in zeros, a plain
right shift the sign; ROT rotates the register; LIN rotates the ring of M and the register; M receives the
last bit to leave. -/
def Obligations.ShiftEngineClosedForms : Prop :=
  ∀ (w : Nat), (w = 16 ∨ w = 32) → ∀ (v : BitVec w) (m : Bool) (n : Nat), 0 < n → n ≤ 32 →
    let left (type : ShiftType) := shiftEngine type (n : Int) v m
    let right (type : ShiftType) := shiftEngine type (-(n : Int)) v m
    (∀ type, shiftEngine type 0 v m = (v, m)) ∧
    (left .plain).1 = v <<< n ∧ (left .zin).1 = v <<< n ∧ (left .rot).1 = v.rotateLeft n ∧
    (right .plain).1 = v.sshiftRight n ∧ (right .zin).1 = v >>> n ∧
    (right .rot).1 = v.rotateRight n ∧
    BitVec.ofBool (left .lin).2 ++ (left .lin).1 = (BitVec.ofBool m ++ v).rotateLeft n ∧
    BitVec.ofBool (right .lin).2 ++ (right .lin).1 = (BitVec.ofBool m ++ v).rotateRight n ∧
    (left .plain).2 = (v <<< (n - 1)).getLsbD (w - 1) ∧
    (left .zin).2 = (v <<< (n - 1)).getLsbD (w - 1) ∧
    (left .rot).2 = (v.rotateLeft n).getLsbD 0 ∧
    (right .plain).2 = (v.sshiftRight (n - 1)).getLsbD 0 ∧
    (right .zin).2 = (v >>> (n - 1)).getLsbD 0 ∧
    (right .rot).2 = (v.rotateRight n).getLsbD (w - 1)

/-! ### Floating point -/

/-- 45_float.md R230 to R233: FAD, FSB, FMU and FDV read three words and put the result of the engine on T,
A, D and the operand into T, A, D, with Z set when a condition is reported; a zero divisor sets Z and keeps
T, A, D. A faulted read changes no register. -/
def Obligations.FloatInstructions : Prop :=
  ∀ (s s₁ s₂ s₃ t : State) (mode : Mode) (disp : BitVec 8) (ea w₀ w₁ w₂ : Word) (apt : Bool),
    decode (mrWord 0o100000 mode disp) = .ok (.fad mode disp) ∧
    decode (mrWord 0o104000 mode disp) = .ok (.fsb mode disp) ∧
    decode (mrWord 0o110000 mode disp) = .ok (.fmu mode disp) ∧
    decode (mrWord 0o114000 mode disp) = .ok (.fdv mode disp) ∧
    (s.effectiveAddress mode disp = .ok (ea, apt) s₁ → s₁.memRead ea apt = .ok w₀ s₂ →
      (s₂.memRead (ea + 1) apt = .abandoned t →
        ∀ i ∈ [Instr.fad mode disp, .fsb mode disp, .fmu mode disp, .fdv mode disp],
          exec i s = .next t ∧ t.banks = s.banks) ∧
      (s₂.memRead (ea + 1) apt = .ok w₁ s₃ →
        (s₃.memRead (ea + 2) apt = .abandoned t →
          ∀ i ∈ [Instr.fad mode disp, .fsb mode disp, .fmu mode disp, .fdv mode disp],
            exec i s = .next t ∧ t.banks = s.banks) ∧
        (s₃.memRead (ea + 2) apt = .ok w₂ t →
          let a := tad s
          let b := unpack w₀ w₁ w₂
          let b' := if b.man = 0 then b else { b with sign := !b.sign }
          exec (.fad mode disp) s =
            .next (afterFloat t (fadd a b).1 (decide ((fadd a b).2 ≠ .exact))) ∧
          exec (.fsb mode disp) s =
            .next (afterFloat t (fadd a b').1 (decide ((fadd a b').2 ≠ .exact))) ∧
          exec (.fmu mode disp) s =
            .next (afterFloat t (fmul a b).1 (decide ((fmul a b).2 ≠ .exact))) ∧
          (b.man ≠ 0 → exec (.fdv mode disp) s =
            .next (afterFloat t (fdiv a b).1 (decide ((fdiv a b).2 ≠ .exact)))) ∧
          (b.man = 0 → exec (.fdv mode disp) s =
            .next ((t.setFlag .z true).jump (s.cur .p + 1))))))

/-- R234, R235: NLZ makes of A, not zero, the normalized float of value `signed(A) * 2^(sc - 16)`, exactly,
and of 0 the zero triple; DNZ puts the float's value times `2^(sc + 16)`, truncated, into A modulo 2^16,
clears T and D, and sets Z when the magnitude exceeds 32767. -/
def Obligations.IntegerFloatConversion : Prop :=
  ∀ (s : State) (scale : BitVec 8),
    let sc := scale.toInt
    let a := (s.cur .a).toInt
    decode (lowWord 0o151400 scale) = .ok (.nlz sc) ∧ decode (lowWord 0o152000 scale) = .ok (.dnz sc) ∧
    (a = 0 → exec (.nlz sc) s = .next (afterFloat s ⟨false, 0, 0⟩ false)) ∧
    (a ≠ 0 → ∃ (f : Flt) (shift : Nat), exec (.nlz sc) s = .next (afterFloat s f false) ∧
      normalized f ∧ (f.sign = true ↔ a < 0) ∧ shift ≤ 15 ∧
      f.man.toNat = a.natAbs * 2 ^ (16 + shift) ∧ (f.exp.toNat : Int) = 16384 + sc - shift) ∧
    (∃ mag : Nat, exec (.dnz sc) s =
      .next (((((setZIf s (decide (32767 < mag))).setCur .a
        (BitVec.ofInt 16 (if (tad s).sign then -(mag : Int) else mag))).setCur .t 0).setCur .d 0).jump
          (s.cur .p + 1)) ∧
      ((tad s).man = 0 → mag = 0) ∧
      (∀ k : Int, k = 16 - (((tad s).exp.toNat : Int) - 16384 + sc) →
        (0 ≤ k → mag * 2 ^ k.toNat ≤ (tad s).man.toNat ∧
          (tad s).man.toNat < (mag + 1) * 2 ^ k.toNat) ∧
        (k < 0 → mag = (tad s).man.toNat * 2 ^ (-k).toNat)))

/-- R224, with R225 and R226, for all operands, normalized or not (R223): a zero operand leaves the other;
else the mantissa of the smaller is shifted right by the exponent difference, at any distance, a lost 1 goes
into bit 0 of the sum or difference before the sum's carry shift, and the result is normalized and checked for
its range. The order of the operands does not matter. A difference that is negative, which needs an operand that
is not normalized, counts modulo 2^32 (log 12). And R224's testable properties: X - X is the standardized zero,
and an operand smaller by 32 or more in the exponent leaves the larger with the sticky bit set. -/
def Obligations.FloatAdditionProperties : Prop :=
  ∀ a b : Flt,
    (b.man = 0 → fadd a b = (if a.man = 0 then Flt.zero else a, .exact)) ∧
    (a.man = 0 → b.man ≠ 0 → fadd a b = (b, .exact)) ∧
    (a.man ≠ 0 → b.man ≠ 0 → fadd b a = fadd a b ∧
      (b.exp < a.exp ∨ (b.exp = a.exp ∧ b.man ≤ a.man) →
        let e : Int := a.exp.toNat
        let delta := a.exp.toNat - b.exp.toNat
        let small := b.man.toNat / 2 ^ delta
        let sticky := if b.man.toNat % 2 ^ delta = 0 then 0 else 1
        let sum := (a.man.toNat + small) ||| sticky
        let difference := ((2 ^ 32 + a.man.toNat - small) % 2 ^ 32) ||| sticky
        (a.sign = b.sign → sum < 2 ^ 32 → normalizesTo a.sign e sum (fadd a b)) ∧
        (a.sign = b.sign → 2 ^ 32 ≤ sum → normalizesTo a.sign (e + 1) (sum / 2) (fadd a b)) ∧
        (a.sign ≠ b.sign → normalizesTo a.sign e difference (fadd a b)))) ∧
    (normalized a → fadd a { a with sign := !a.sign } = (Flt.zero, .exact)) ∧
    (normalized a → b.man ≠ 0 → b.exp.toNat + 32 ≤ a.exp.toNat →
      fadd a b = ({ a with man := a.man ||| 1 }, .exact) ∧
      fadd b a = ({ a with man := a.man ||| 1 }, .exact))

/-- R227, with R222, R223 and R226, for all operands, normalized or not, a divisor of zero apart (R233): a zero
operand of the product and a zero dividend give the standardized zero; else the exact product and quotient of the
mantissas are scaled by the one power of two that fits and truncated to 32 bits, with the sign and exponent that
go with them, or the overflow or underflow result. For normalized operands the power is one of two. -/
def Obligations.FloatProductAndQuotientTruncate : Prop :=
  ∀ a b : Flt,
    let outcome := rangeResult (a.sign ^^ b.sign)
    let ea : Int := a.exp.toNat
    let eb : Int := b.exp.toNat
    let n := a.man.toNat
    let d := b.man.toNat
    let p := n * d
    (a.man = 0 ∨ b.man = 0 → fmul a b = (Flt.zero, .exact)) ∧
    (b.man ≠ 0 → a.man = 0 → fdiv a b = (Flt.zero, .exact)) ∧
    (∀ k : Nat, 2 ^ 63 ≤ p * 2 ^ k → p * 2 ^ k < 2 ^ 64 →
      fmul a b = outcome (ea + eb - 16384 - k) (p * 2 ^ k / 2 ^ 32)) ∧
    (∀ k : Nat, 2 ^ 31 * d ≤ n * 2 ^ k → n * 2 ^ k < 2 ^ 32 * d →
      fdiv a b = outcome (ea - eb + 16384 + (32 - k)) (n * 2 ^ k / d)) ∧
    (a.man ≠ 0 → b.man ≠ 0 →
      (∃ k : Nat, 2 ^ 63 ≤ p * 2 ^ k ∧ p * 2 ^ k < 2 ^ 64) ∧
      (∃ k : Nat, 2 ^ 31 * d ≤ n * 2 ^ k ∧ n * 2 ^ k < 2 ^ 32 * d)) ∧
    (normalized a → normalized b →
      (2 ^ 63 ≤ p → fmul a b = outcome (ea + eb - 16384) (p / 2 ^ 32)) ∧
      (p < 2 ^ 63 → fmul a b = outcome (ea + eb - 16385) (p / 2 ^ 31)) ∧
      (b.man ≤ a.man → fdiv a b = outcome (ea - eb + 16385) (n * 2 ^ 31 / d)) ∧
      (a.man < b.man → fdiv a b = outcome (ea - eb + 16384) (n * 2 ^ 32 / d)))

/-! ### System instructions -/

/-- 46_system.md R252 to R256: what TRA reads, and what TRR, MCL and MST write, for each internal register
number; TRA IIC clears IID; the other numbers of MCL and MST change nothing but P. What a register outside
the block presents is the model's `ext`, and what a write to one does to that is the parameter `ExtRegWrite`
(log 7): this holds for every value of it. 10_state.md R13, R14: STS reads on every level IONI : PONI : SEXI :
1 : PIL above that level's flags, and the flags are, from bit 0 upward, PTM, TG, K, Z, Q, O, C and M. -/
def Obligations.InternalRegisters : Prop :=
  ∀ (s : State) (n : BitVec 4), s.mayRunPrivileged →
    let a := s.cur .a
    let low : BitVec 8 := a.extractLsb' 0 8
    let read (v : Word) : Host.Outcome State Fault Refusal :=
      .next ((s.setCur .a v).jump (s.cur .p + 1))
    let done (u : State) : Host.Outcome State Fault Refusal := .next (u.jump (s.cur .p + 1))
    (∀ l : Level,
      (s.sts l).getLsbD 15 = s.ioni ∧ (s.sts l).getLsbD 14 = s.poni ∧
      (s.sts l).getLsbD 13 = s.sexi ∧ (s.sts l).getLsbD 12 = true ∧
      (s.sts l).extractLsb' 8 4 = s.pil ∧ (s.sts l).extractLsb' 0 8 = s.flags l ∧
      s.stsh ++ s.flags l = s.sts l) ∧
    s.curFlags = s.flags s.pil ∧
    (s.curFlags.getLsbD 0 = s.flag .ptm ∧ s.curFlags.getLsbD 1 = s.flag .tg ∧
      s.curFlags.getLsbD 2 = s.flag .k ∧ s.curFlags.getLsbD 3 = s.flag .z ∧
      s.curFlags.getLsbD 4 = s.flag .q ∧ s.curFlags.getLsbD 5 = s.flag .o ∧
      s.curFlags.getLsbD 6 = s.flag .c ∧ s.curFlags.getLsbD 7 = s.flag .m) ∧
    decode (0o150000 ||| n.zeroExtend 16) = .ok (.tra n) ∧
    decode (0o150100 ||| n.zeroExtend 16) = .ok (.trr n) ∧
    decode (0o150200 ||| n.zeroExtend 16) = .ok (.mcl n) ∧
    decode (0o150300 ||| n.zeroExtend 16) = .ok (.mst n) ∧
    exec (.tra 0o1) s = read (s.sts s.pil) ∧
    exec (.tra 0o3) s = read s.pgs ∧
    exec (.tra 0o4) s = read (0o153602 ||| (s.pvl.zeroExtend 16 <<< 3)) ∧
    (∃ c : Level, (s.iid = 0 → c = 0) ∧
      (s.iid ≠ 0 → s.iid.getLsbD c.toNat = true ∧ ∀ k, c.toNat < k → s.iid.getLsbD k = false) ∧
      exec (.tra 0o5) s =
        .next (({ s with iid := 0 }.setCur .a (c.zeroExtend 16)).jump (s.cur .p + 1))) ∧
    exec (.tra 0o6) s = read s.pid ∧
    exec (.tra 0o7) s = read s.pie ∧
    exec (.tra 0o14) s = read (s.pcrOf (a.extractLsb' 3 4)) ∧
    (n ∈ [(0o0 : BitVec 4), 0o2, 0o10, 0o11, 0o12, 0o13, 0o15, 0o16, 0o17] →
      exec (.tra n) s = read (s.external n)) ∧
    exec (.trr 0o1) s = done (s.setCurFlags low) ∧
    exec (.trr 0o3) s = done (s.setPcr (a.extractLsb' 3 4) (a &&& 0o003603)) ∧
    exec (.trr 0o5) s = done { s with iie := a } ∧
    exec (.trr 0o6) s = done { s with pid := a } ∧
    exec (.trr 0o7) s = done { s with pie := a } ∧
    (n ∉ [(0o1 : BitVec 4), 0o3, 0o5, 0o6, 0o7] →
      exec (.trr n) s = done { s with ext := Config.extRegWrite n a s.ext }) ∧
    exec (.mcl 0o1) s = done (s.setCurFlags (s.curFlags &&& ~~~low)) ∧
    exec (.mcl 0o6) s = done { s with pid := s.pid &&& ~~~a } ∧
    exec (.mcl 0o7) s = done { s with pie := s.pie &&& ~~~a } ∧
    exec (.mst 0o1) s = done (s.setCurFlags (s.curFlags ||| low)) ∧
    exec (.mst 0o6) s = done { s with pid := s.pid ||| a } ∧
    exec (.mst 0o7) s = done { s with pie := s.pie ||| a } ∧
    (n ∉ [(0o1 : BitVec 4), 0o6, 0o7] → exec (.mcl n) s = done s ∧ exec (.mst n) s = done s)

/-- R260 to R267, R285: the eight mode switches write the global mode flags and OPCOM stops the CPU, each
with `next` and nothing else. -/
def Obligations.ModeSwitches : Prop :=
  ∀ s : State, s.mayRunPrivileged →
    let done (u : State) : Host.Outcome State Fault Refusal := .next (u.jump (s.cur .p + 1))
    decode 0o150401 = .ok .iof ∧ decode 0o150402 = .ok .ion ∧ decode 0o150404 = .ok .pof ∧
    decode 0o150410 = .ok .pon ∧ decode 0o150405 = .ok .piof ∧ decode 0o150412 = .ok .pion ∧
    decode 0o150406 = .ok .sex ∧ decode 0o150407 = .ok .rex ∧ decode 0o150400 = .ok .opcom ∧
    exec .iof s = done { s with ioni := false } ∧ exec .ion s = done { s with ioni := true } ∧
    exec .pof s = done { s with poni := false } ∧ exec .pon s = done { s with poni := true } ∧
    exec .piof s = done { s with poni := false, ioni := false } ∧
    exec .pion s = done { s with poni := true, ioni := true } ∧
    exec .sex s = done { s with sexi := true } ∧ exec .rex s = done { s with sexi := false } ∧
    exec .opcom s = done { s with runMode := .stop } ∧
    { s with ioni := false }.interruptCheck = { s with ioni := false }

/-- R268, R269: with the interrupt system on WAIT clears the pending bit of the
current level, else it stops the CPU. MON, in any ring, raises cause 1 and puts its sign-extended number
into T of level 14. P of the level advances. -/
def Obligations.WaitAndMonitorCall : Prop :=
  ∀ (s : State) (n : BitVec 8),
    decode (lowWord 0o151000 n) = .ok .wait ∧ decode (lowWord 0o153000 n) = .ok (.mon n) ∧
    (s.mayRunPrivileged →
      (s.ioni = false → exec .wait s = .next ({ s with runMode := .stop }.jump (s.cur .p + 1))) ∧
      (s.ioni = true →
        exec .wait s =
          .next ({ s with pid := s.pid &&& ~~~(1#16 <<< s.pil.toNat) }.jump (s.cur .p + 1)))) ∧
    exec (.mon n) s =
      .next (((s.raiseInt 14 0o2).setReg 14 .t (n.signExtend 16)).jump (s.cur .p + 1))

/-- R270: IDENT takes the oldest entry of its level from the ident chain and its code into A; with no
entry it raises cause 7 and A is unchanged; P advances in both cases. The words 01436xx other than its four
are illegal. -/
def Obligations.IdentTakesOldestEntry : Prop :=
  (∀ w : Word, w &&& 0o177700 = 0o143600 → w ∉ [(0o143604 : Word), 0o143611, 0o143622, 0o143643] →
    ∃ e, decode w = .error e) ∧
  ∀ (s : State) (level : Level) (i : Instr), s.mayRunPrivileged →
    (level, i) ∈ [((10 : Level), Instr.identPL10), (11, .identPL11), (12, .identPL12),
      (13, .identPL13)] →
    decode 0o143604 = .ok .identPL10 ∧ decode 0o143611 = .ok .identPL11 ∧
    decode 0o143622 = .ok .identPL12 ∧ decode 0o143643 = .ok .identPL13 ∧
    (∀ (newer older : List IdentEntry) (e : IdentEntry),
      s.identChain = older ++ e :: newer → e.level = level → (∀ x ∈ older, x.level ≠ level) →
      exec i s =
        .next (({ s with identChain := older ++ newer }.setCur .a e.code).jump (s.cur .p + 1))) ∧
    ((∀ x ∈ s.identChain, x.level ≠ level) →
      exec i s = .next ((s.raiseInt 14 0o200).jump (s.cur .p + 1)))

/-- R271 to R274: IRR reads and IRW writes a register of any level; register 0 is STS, of which IRW writes
the low byte; the current level's own P is not written. LRB loads the registers of a level from the eight
words from X, all read first, but not the current level's own P; SRB stores them in the same order, the
current level's P as the address after the SRB. A faulted read writes no register; a faulted write leaves
the registers. -/
def Obligations.OtherLevelsRegisters : Prop :=
  ∀ (s t : State) (level : Level) (r : Reg) (v₀ v₁ v₂ v₃ v₄ v₅ v₆ v₇ : Word), s.mayRunPrivileged →
    let x := s.cur .x
    let p := s.cur .p + 1
    let words := [x, x + 1, x + 2, x + 3, x + 4, x + 5, x + 6, x + 7]
    let block := [if level = s.pil then p else s.reg level .p, s.reg level .x, s.reg level .t,
      s.reg level .a, s.reg level .d, s.reg level .l, s.stsh ++ s.flags level, s.reg level .b]
    decode (mlWord 0o153600 level (codeOfReg (some r))) = .ok (.irr level (some r)) ∧
    decode (mlWord 0o153600 level 0) = .ok (.irr level none) ∧
    decode (mlWord 0o153400 level (codeOfReg (some r))) = .ok (.irw level (some r)) ∧
    decode (mlWord 0o153400 level 0) = .ok (.irw level none) ∧
    decode (mlWord 0o152600 level 0) = .ok (.lrb level) ∧
    decode (mlWord 0o152400 level 2) = .ok (.srb level) ∧
    exec (.irr level (some r)) s = .next ((s.setCur .a (s.reg level r)).jump p) ∧
    exec (.irr level none) s = .next ((s.setCur .a (s.stsh ++ s.flags level)).jump p) ∧
    exec (.irw level none) s = .next ((s.setFlags level ((s.cur .a).extractLsb' 0 8)).jump p) ∧
    (r = .p → level = s.pil → exec (.irw level (some r)) s = .next (s.jump p)) ∧
    (¬(r = .p ∧ level = s.pil) →
      exec (.irw level (some r)) s = .next ((s.setReg level r (s.cur .a)).jump p)) ∧
    (s.memReadList true words = .ok [v₀, v₁, v₂, v₃, v₄, v₅, v₆, v₇] t →
      exec (.lrb level) s =
        .next ((afterBlockLoad t level v₀ v₁ v₂ v₃ v₄ v₅ v₆ v₇).jump p)) ∧
    (s.memReadList true words = .abandoned t → exec (.lrb level) s = .next t ∧ t.banks = s.banks) ∧
    (s.memWriteList true (words.zip block) = .ok () t → exec (.srb level) s = .next (t.jump p)) ∧
    (s.memWriteList true (words.zip block) = .abandoned t →
      exec (.srb level) s = .next t ∧ t.banks = s.banks)

/-- R275, R276, 60_exceptions.md R324: IOX and IOXT give A to the environment under the device address and
take the new A from it; with no answer they raise cause 7; P advances. The environment's answer is the free
value of log 6: this holds for every value of it. -/
def Obligations.InputOutput : Prop :=
  ∀ (s : State) (dev : BitVec 11), s.mayRunPrivileged →
    let after (address : Word) : State :=
      let answer := Config.ioOp s.ioCount address (s.cur .a)
      let u := { s with ioCount := s.ioCount + 1 }.setCur .a answer.1
      (if answer.2 then u else u.raiseInt 14 0o200).jump (s.cur .p + 1)
    decode (0o164000 ||| dev.zeroExtend 16) = .ok (.iox dev) ∧ decode 0o150415 = .ok .ioxt ∧
    exec (.iox dev) s = .next (after (dev.zeroExtend 16)) ∧
    exec .ioxt s = .next (after (s.cur .t))

/-- R277 to R284, 20_memory.md R59, R63: EXAM, DEPO and the TX instructions read and write the physical word
of their 24-bit address, whatever the paging state, and set no marker bit; where a word they reach is not
installed they are refused. -/
def Obligations.PhysicalMemoryInstructions : Prop :=
  ∀ (s : State) (delta : BitVec 3), s.mayRunPrivileged →
    let panel : PhysAddr := (s.cur .a).extractLsb' 0 8 ++ s.cur .d
    let pa : PhysAddr := ((s.cur .t).extractLsb' 0 8 ++ s.cur .x) + delta.zeroExtend 24
    let word (k : Word) : Word := 0o143300 ||| (delta.zeroExtend 16 <<< 3) ||| k
    let done (u : State) : Host.Outcome State Fault Refusal := .next (u.jump (s.cur .p + 1))
    decode 0o150416 = .ok .exam ∧ decode 0o150417 = .ok .depo ∧
    decode (word 0) = .ok (.ldatx delta) ∧ decode (word 1) = .ok (.ldxtx delta) ∧
    decode (word 2) = .ok (.lddtx delta) ∧ decode (word 4) = .ok (.statx delta) ∧
    decode (word 5) = .ok (.stztx delta) ∧ decode (word 6) = .ok (.stdtx delta) ∧
    (∃ e, decode (word 7) = .error e) ∧
    (panel.toNat < s.physWords →
      exec .exam s = done (s.setCur .t (s.phys panel)) ∧
      exec .depo s = done { s with mem := s.mem.writeWord panel (s.cur .t) }) ∧
    (pa.toNat < s.physWords →
      exec (.ldatx delta) s = done (s.setCur .a (s.phys pa)) ∧
      exec (.ldxtx delta) s = done (s.setCur .x (s.phys pa)) ∧
      exec (.statx delta) s = done { s with mem := s.mem.writeWord pa (s.cur .a) } ∧
      exec (.stztx delta) s = done { s with mem := s.mem.writeWord pa 0 }) ∧
    (pa.toNat < s.physWords → (pa + 1).toNat < s.physWords →
      exec (.lddtx delta) s = done ((s.setCur .a (s.phys pa)).setCur .d (s.phys (pa + 1))) ∧
      exec (.stdtx delta) s =
        done { s with mem := (s.mem.writeWord pa (s.cur .a)).writeWord (pa + 1) (s.cur .d) }) ∧
    (s.physWords ≤ panel.toNat →
      exec .exam s = .refused .beyondPhysWords ∧ exec .depo s = .refused .beyondPhysWords) ∧
    (s.physWords ≤ pa.toNat → ∀ i ∈ [Instr.ldatx delta, .ldxtx delta, .statx delta, .stztx delta],
      exec i s = .refused .beyondPhysWords) ∧
    (s.physWords ≤ pa.toNat ∨ s.physWords ≤ (pa + 1).toNat →
      exec (.lddtx delta) s = .refused .beyondPhysWords ∧
      exec (.stdtx delta) s = .refused .beyondPhysWords)

/-! ### What instructions leave unchanged -/

/-- 10_state.md R10 to R14, for every instruction: the registers of the current level that are not among
its destinations, the flags it does not write, every other level's bank but the one it names, and all
scratch registers are unchanged. P is not spoken of. For EXR read the instruction it executes. -/
def Obligations.RegisterFrame : Prop :=
  ∀ (i j : Instr) (s t : State), s.executed i = some j → exec i s = .next t →
    (∀ r, r ≠ .p → r ∉ destinations s.pil j → t.reg s.pil r = s.reg s.pil r) ∧
    (∀ g, g ∉ flagsWritten s.pil j → flagOf (t.flags s.pil) g = flagOf (s.flags s.pil) g) ∧
    (∀ l, l ≠ s.pil → otherLevel j ≠ some l → t.bank l = s.bank l) ∧
    (∀ l, (t.bank l).scratch = (s.bank l).scratch)

/-- For every instruction: the parts of the state beside the register file that the spec does not say it
writes are unchanged; an instruction never writes PIL or PVL (10_state.md R13, R16), nor the number of words
installed; only TRR, to a register outside the block, touches what the external registers present; it never
faults. -/
def Obligations.SystemStateFrame : Prop :=
  ∀ (i j : Instr) (s : State), s.executed i = some j →
    (∀ t, exec i s = .next t → ∀ part, part ∉ partsWritten j → part.same s t) ∧
    (∀ f, exec i s ≠ .fault f)

/-- For every instruction: every byte of memory that is not among those it stores to is unchanged; the
bytes are those of the addresses its operands give, computed as the instruction computes them. And a
page-table entry changes at most by marker bits that are set (20_memory.md R55, R60), for every instruction
that stores nothing and for every level that cannot see the shadow window. -/
def Obligations.MemoryAndTableFrame : Prop :=
  ∀ (i j : Instr) (s t : State), s.executed i = some j → exec i s = .next t →
    (∀ a, a ∉ storedBytes s j → t.mem.readByte a = s.mem.readByte a) ∧
    (Part.memory ∉ partsWritten j ∨ (s.poni = true ∧ s.ring ≠ 3) →
      ∀ u v, markedFrom (s.pte u v) (t.pte u v))

/-! ### The machine as a whole -/

/-- The invariant holds after reset. -/
def Obligations.ResetIsGood : Prop := State.reset.Good

/-- 10_state.md R19, R20 and the canonical form of memory: every step of the machine, of the CPU, a device
or the host, keeps the invariant, from every state that has it. -/
def Obligations.StepKeepsGood : Prop :=
  ∀ s t : State, s.Good → step s = .next t → t.Good

/-- 60_exceptions.md R330: a step of the CPU on an unprivileged level changes no mode flag, no enable
register, no page-control register, no pending bit but that of level 14, no ident-chain entry, no other
level's registers but T of level 14 (MON), and no page-table entry beyond marker bits. -/
def Obligations.UnprivilegedStepIsConfined : Prop :=
  ∀ s t : State, s.cpusTurn → s.unprivileged → step s = .next t →
    (t.ioni = s.ioni ∧ t.poni = s.poni ∧ t.sexi = s.sexi) ∧
    (t.pie = s.pie ∧ t.iie = s.iie ∧ t.pcr = s.pcr ∧ t.identChain = s.identChain) ∧
    (∀ n, n ≠ 14 → t.pid.getLsbD n = s.pid.getLsbD n) ∧
    (∀ l r, l ≠ s.pil → ¬(l = 14 ∧ r = .t) → t.reg l r = s.reg l r) ∧
    (∀ l, l ≠ s.pil → t.flags l = s.flags l) ∧
    (∀ u v, markedFrom (s.pte u v) (t.pte u v))

/-- R330, 20_memory.md R52: a step of the CPU on an unprivileged level changes a byte of memory only in a
physical page that an entry of one of the level's two tables lets its ring write. -/
def Obligations.UnprivilegedStoresStayInWritablePages : Prop :=
  ∀ (s t : State) (a : Nat), s.cpusTurn → s.unprivileged → step s = .next t →
    t.mem.readByte a ≠ s.mem.readByte a →
    ∃ (apt : Bool) (v : BitVec 6), writableEntry s (s.pte (s.selectTable apt) v) ∧
      a / 2048 = (s.pageNumber (s.pte (s.selectTable apt) v)).toNat
end

