-- ==== Sys2Proof/Laws/Memory.lean ====
section
/-! SUPPORT. Memory: a read after a write, and the canonical form kept by every operation. -/

namespace Sys2Proof.Machine

/-! ### A read after a write -/

theorem Memory.readByte_removeCell (m : Memory) (a b : Nat) :
    (m.removeCell a).readByte b = if b = a then Config.unlistedByte else m.readByte b := by
  induction m with
  | nil => simp [Memory.removeCell, Memory.readByte]
  | cons c m ih =>
    obtain ⟨k, w⟩ := c
    simp only [Memory.removeCell]
    by_cases h : k = a
    · rw [if_pos h, ih]
      by_cases e : b = a
      · simp [e]
      · have : k ≠ b := fun q => e (q ▸ h)
        simp [e, Memory.readByte, this]
    · rw [if_neg h]
      simp only [Memory.readByte]
      by_cases e : k = b
      · have : b ≠ a := e ▸ h
        simp [e, this]
      · simp [e, ih]

theorem Memory.readByte_insertCell (m : Memory) (a b : Nat) (v : Byte)
    (h : m.readByte a = Config.unlistedByte → True) (fresh : ∀ c ∈ m, c.1 ≠ a) :
    (m.insertCell a v).readByte b = if b = a then v else m.readByte b := by
  induction m with
  | nil =>
    by_cases e : b = a
    · simp [Memory.insertCell, Memory.readByte, e]
    · simp [Memory.insertCell, Memory.readByte, e, Ne.symm e]
  | cons c m ih =>
    obtain ⟨k, w⟩ := c
    have hk : k ≠ a := fresh (k, w) (by simp)
    have hm : ∀ c ∈ m, c.1 ≠ a := fun c hc => fresh c (by simp [hc])
    simp only [Memory.insertCell]
    by_cases lt : a < k
    · rw [if_pos lt]
      by_cases e : b = a
      · simp [Memory.readByte, e]
      · simp [Memory.readByte, e, Ne.symm e]
    · rw [if_neg lt]
      by_cases e : k = b
      · have : b ≠ a := e ▸ hk
        simp [Memory.readByte, e, this]
      · simp [Memory.readByte, e, ih (fun _ => trivial) hm]

theorem Memory.removeCell_fresh (m : Memory) (a : Nat) : ∀ c ∈ m.removeCell a, c.1 ≠ a := by
  induction m with
  | nil => intro c hc; simp [Memory.removeCell] at hc
  | cons c m ih =>
    obtain ⟨k, w⟩ := c
    simp only [Memory.removeCell]
    by_cases h : k = a
    · rw [if_pos h]; exact ih
    · rw [if_neg h]
      intro c hc
      rcases List.mem_cons.mp hc with rfl | hc
      · exact h
      · exact ih c hc

/-- A byte read after a byte written. -/
theorem Memory.readByte_writeByte (m : Memory) (a b : Nat) (v : Byte) :
    (m.writeByte a v).readByte b = if b = a then v else m.readByte b := by
  unfold Memory.writeByte
  by_cases h : v = Config.unlistedByte
  · rw [if_pos h, Memory.readByte_removeCell, h]
  · rw [if_neg h, Memory.readByte_insertCell _ _ _ _ (fun _ => trivial) (m.removeCell_fresh a),
      Memory.readByte_removeCell]
    by_cases e : b = a <;> simp [e]

@[simp] theorem Memory.readByte_writeByte_same (m : Memory) (a : Nat) (v : Byte) :
    (m.writeByte a v).readByte a = v := by simp [Memory.readByte_writeByte]

/-- A byte read after a word written. -/
theorem Memory.readByte_writeWord (m : Memory) (pa : PhysAddr) (v : Word) (b : Nat) :
    (m.writeWord pa v).readByte b =
      if b = lowByteAddr pa then v.extractLsb' 0 8
      else if b = highByteAddr pa then v.extractLsb' 8 8
      else m.readByte b := by
  simp [Memory.writeWord, Memory.readByte_writeByte]

theorem highByteAddr_ne_lowByteAddr (pa qa : PhysAddr) : highByteAddr pa ≠ lowByteAddr qa := by
  unfold highByteAddr lowByteAddr; omega

theorem highByteAddr_inj {pa qa : PhysAddr} : highByteAddr pa = highByteAddr qa ↔ pa = qa := by
  unfold highByteAddr
  constructor
  · intro h; exact BitVec.eq_of_toNat_eq (by omega)
  · rintro rfl; rfl

theorem lowByteAddr_inj {pa qa : PhysAddr} : lowByteAddr pa = lowByteAddr qa ↔ pa = qa := by
  unfold lowByteAddr
  constructor
  · intro h; exact BitVec.eq_of_toNat_eq (by omega)
  · rintro rfl; rfl

/-- A word is its two halves joined. -/
theorem word_halves (v : Word) : v.extractLsb' 8 8 ++ v.extractLsb' 0 8 = v := by
  apply BitVec.eq_of_getLsbD_eq
  intro i hi
  rw [BitVec.getLsbD_append]
  by_cases h : i < 8
  · simp [h]
  · have e : 8 + (i - 8) = i := by omega
    have l : i - 8 < 8 := by omega
    simp [h, e, l]

/-- A word read after a word written. -/
theorem Memory.readWord_writeWord (m : Memory) (pa qa : PhysAddr) (v : Word) :
    (m.writeWord pa v).readWord qa = if qa = pa then v else m.readWord qa := by
  unfold Memory.readWord
  rw [Memory.readByte_writeWord, Memory.readByte_writeWord]
  by_cases h : qa = pa
  · subst h
    simp [highByteAddr_ne_lowByteAddr, word_halves]
  · simp [highByteAddr_ne_lowByteAddr, (highByteAddr_ne_lowByteAddr _ _).symm, highByteAddr_inj,
      lowByteAddr_inj, h]

/-- A word read after a selected byte of one was written (20_memory.md R58). -/
theorem Memory.readWord_writeSelected (m : Memory) (pa qa : PhysAddr) (sel : Bool) (v : Byte) :
    (m.writeSelected pa sel v).readWord qa =
      if qa = pa then
        (if sel then m.readByte (highByteAddr pa) ++ v else v ++ m.readByte (lowByteAddr pa))
      else m.readWord qa := by
  unfold Memory.readWord Memory.writeSelected
  rw [Memory.readByte_writeByte, Memory.readByte_writeByte]
  by_cases h : qa = pa
  · subst h
    cases sel <;> simp [highByteAddr_ne_lowByteAddr, (highByteAddr_ne_lowByteAddr _ _).symm]
  · cases sel <;>
      simp [highByteAddr_ne_lowByteAddr, (highByteAddr_ne_lowByteAddr _ _).symm, highByteAddr_inj,
        lowByteAddr_inj, h]

/-! ### The canonical form -/

theorem Memory.wfFrom_mono {lo lo' : Nat} (m : Memory) (h : lo ≤ lo')
    (w : Memory.wfFrom lo' m = true) : Memory.wfFrom lo m = true := by
  cases m with
  | nil => rfl
  | cons c m =>
    obtain ⟨k, v⟩ := c
    simp only [Memory.wfFrom, Bool.and_eq_true, decide_eq_true_eq] at w ⊢
    exact ⟨⟨⟨by omega, w.1.1.2⟩, w.1.2⟩, w.2⟩

theorem Memory.wfFrom_removeCell (m : Memory) (a : Nat) :
    ∀ lo, Memory.wfFrom lo m = true → Memory.wfFrom lo (m.removeCell a) = true := by
  induction m with
  | nil => intro lo _; rfl
  | cons c m ih =>
    intro lo w
    obtain ⟨k, v⟩ := c
    simp only [Memory.wfFrom, Bool.and_eq_true, decide_eq_true_eq] at w
    simp only [Memory.removeCell]
    by_cases h : k = a
    · rw [if_pos h]
      exact Memory.wfFrom_mono _ (by omega) (ih _ w.2)
    · rw [if_neg h]
      simp only [Memory.wfFrom, Bool.and_eq_true, decide_eq_true_eq]
      exact ⟨w.1, ih _ w.2⟩

theorem Memory.wfFrom_insertCell (m : Memory) (a : Nat) (v : Byte)
    (ha : a < 2 * 2 ^ 24) (hv : v ≠ Config.unlistedByte) :
    ∀ lo, lo ≤ a → (∀ c ∈ m, c.1 ≠ a) → Memory.wfFrom lo m = true →
      Memory.wfFrom lo (m.insertCell a v) = true := by
  induction m with
  | nil =>
    intro lo hlo _ _
    simp [Memory.insertCell, Memory.wfFrom, hlo, hv]
    omega
  | cons c m ih =>
    intro lo hlo fresh w
    obtain ⟨k, x⟩ := c
    have hk : k ≠ a := fresh (k, x) (by simp)
    have hm : ∀ c ∈ m, c.1 ≠ a := fun c hc => fresh c (by simp [hc])
    simp only [Memory.wfFrom, Bool.and_eq_true, decide_eq_true_eq] at w
    simp only [Memory.insertCell]
    by_cases h : a < k
    · rw [if_pos h]
      simp only [Memory.wfFrom, Bool.and_eq_true, decide_eq_true_eq]
      exact ⟨⟨⟨hlo, ha⟩, hv⟩, ⟨⟨by omega, w.1.1.2⟩, w.1.2⟩, w.2⟩
    · rw [if_neg h]
      simp only [Memory.wfFrom, Bool.and_eq_true, decide_eq_true_eq]
      exact ⟨w.1, ih (k + 1) (by omega) hm w.2⟩

/-- Writing a byte of the address space keeps the canonical form. -/
theorem Memory.wf_writeByte (m : Memory) (a : Nat) (v : Byte) (ha : a < 2 * 2 ^ 24)
    (w : m.wf = true) : (m.writeByte a v).wf = true := by
  unfold Memory.wf at w ⊢
  unfold Memory.writeByte
  by_cases h : v = Config.unlistedByte
  · rw [if_pos h]; exact Memory.wfFrom_removeCell m a 0 w
  · rw [if_neg h]
    exact Memory.wfFrom_insertCell _ a v ha h 0 (Nat.zero_le _) (m.removeCell_fresh a)
      (Memory.wfFrom_removeCell m a 0 w)

theorem highByteAddr_lt (pa : PhysAddr) : highByteAddr pa < 2 * 2 ^ 24 := by
  have := pa.isLt
  unfold highByteAddr; omega

theorem lowByteAddr_lt (pa : PhysAddr) : lowByteAddr pa < 2 * 2 ^ 24 := by
  have := pa.isLt
  unfold lowByteAddr; omega

/-- Writing a word keeps the canonical form. -/
theorem Memory.wf_writeWord (m : Memory) (pa : PhysAddr) (v : Word) (w : m.wf = true) :
    (m.writeWord pa v).wf = true :=
  Memory.wf_writeByte _ _ _ (lowByteAddr_lt pa) (Memory.wf_writeByte _ _ _ (highByteAddr_lt pa) w)

/-- The byte-select write keeps the canonical form. -/
theorem Memory.wf_writeSelected (m : Memory) (pa : PhysAddr) (sel : Bool) (v : Byte)
    (w : m.wf = true) : (m.writeSelected pa sel v).wf = true := by
  cases sel
  · exact Memory.wf_writeByte _ _ _ (highByteAddr_lt pa) w
  · exact Memory.wf_writeByte _ _ _ (lowByteAddr_lt pa) w

end Sys2Proof.Machine
end

