-- ==== Sys2Proof/Laws/State.lean ====
section
/-! SUPPORT. What each update of the state leaves: one lemma per field per update, true by rfl. -/

namespace Sys2Proof.Machine

variable (s : State)

/-! ### `setBank` -/

@[simp] theorem State.ioni_setBank (l : Level) (k : Bank) : (s.setBank l k).ioni = s.ioni := rfl
@[simp] theorem State.poni_setBank (l : Level) (k : Bank) : (s.setBank l k).poni = s.poni := rfl
@[simp] theorem State.sexi_setBank (l : Level) (k : Bank) : (s.setBank l k).sexi = s.sexi := rfl
@[simp] theorem State.pil_setBank (l : Level) (k : Bank) : (s.setBank l k).pil = s.pil := rfl
@[simp] theorem State.pid_setBank (l : Level) (k : Bank) : (s.setBank l k).pid = s.pid := rfl
@[simp] theorem State.pie_setBank (l : Level) (k : Bank) : (s.setBank l k).pie = s.pie := rfl
@[simp] theorem State.iid_setBank (l : Level) (k : Bank) : (s.setBank l k).iid = s.iid := rfl
@[simp] theorem State.iie_setBank (l : Level) (k : Bank) : (s.setBank l k).iie = s.iie := rfl
@[simp] theorem State.pvl_setBank (l : Level) (k : Bank) : (s.setBank l k).pvl = s.pvl := rfl
@[simp] theorem State.identChain_setBank (l : Level) (k : Bank) : (s.setBank l k).identChain = s.identChain := rfl
@[simp] theorem State.pt_setBank (l : Level) (k : Bank) : (s.setBank l k).pt = s.pt := rfl
@[simp] theorem State.pcr_setBank (l : Level) (k : Bank) : (s.setBank l k).pcr = s.pcr := rfl
@[simp] theorem State.pgs_setBank (l : Level) (k : Bank) : (s.setBank l k).pgs = s.pgs := rfl
@[simp] theorem State.runMode_setBank (l : Level) (k : Bank) : (s.setBank l k).runMode = s.runMode := rfl
@[simp] theorem State.mem_setBank (l : Level) (k : Bank) : (s.setBank l k).mem = s.mem := rfl
@[simp] theorem State.ext_setBank (l : Level) (k : Bank) : (s.setBank l k).ext = s.ext := rfl
@[simp] theorem State.ioCount_setBank (l : Level) (k : Bank) : (s.setBank l k).ioCount = s.ioCount := rfl
@[simp] theorem State.turns_setBank (l : Level) (k : Bank) : (s.setBank l k).turns = s.turns := rfl
@[simp] theorem State.physWords_setBank (l : Level) (k : Bank) : (s.setBank l k).physWords = s.physWords := rfl

/-! ### `setReg` -/

@[simp] theorem State.ioni_setReg (l : Level) (r : Reg) (v : Word) : (s.setReg l r v).ioni = s.ioni := rfl
@[simp] theorem State.poni_setReg (l : Level) (r : Reg) (v : Word) : (s.setReg l r v).poni = s.poni := rfl
@[simp] theorem State.sexi_setReg (l : Level) (r : Reg) (v : Word) : (s.setReg l r v).sexi = s.sexi := rfl
@[simp] theorem State.pil_setReg (l : Level) (r : Reg) (v : Word) : (s.setReg l r v).pil = s.pil := rfl
@[simp] theorem State.pid_setReg (l : Level) (r : Reg) (v : Word) : (s.setReg l r v).pid = s.pid := rfl
@[simp] theorem State.pie_setReg (l : Level) (r : Reg) (v : Word) : (s.setReg l r v).pie = s.pie := rfl
@[simp] theorem State.iid_setReg (l : Level) (r : Reg) (v : Word) : (s.setReg l r v).iid = s.iid := rfl
@[simp] theorem State.iie_setReg (l : Level) (r : Reg) (v : Word) : (s.setReg l r v).iie = s.iie := rfl
@[simp] theorem State.pvl_setReg (l : Level) (r : Reg) (v : Word) : (s.setReg l r v).pvl = s.pvl := rfl
@[simp] theorem State.identChain_setReg (l : Level) (r : Reg) (v : Word) : (s.setReg l r v).identChain = s.identChain := rfl
@[simp] theorem State.pt_setReg (l : Level) (r : Reg) (v : Word) : (s.setReg l r v).pt = s.pt := rfl
@[simp] theorem State.pcr_setReg (l : Level) (r : Reg) (v : Word) : (s.setReg l r v).pcr = s.pcr := rfl
@[simp] theorem State.pgs_setReg (l : Level) (r : Reg) (v : Word) : (s.setReg l r v).pgs = s.pgs := rfl
@[simp] theorem State.runMode_setReg (l : Level) (r : Reg) (v : Word) : (s.setReg l r v).runMode = s.runMode := rfl
@[simp] theorem State.mem_setReg (l : Level) (r : Reg) (v : Word) : (s.setReg l r v).mem = s.mem := rfl
@[simp] theorem State.ext_setReg (l : Level) (r : Reg) (v : Word) : (s.setReg l r v).ext = s.ext := rfl
@[simp] theorem State.ioCount_setReg (l : Level) (r : Reg) (v : Word) : (s.setReg l r v).ioCount = s.ioCount := rfl
@[simp] theorem State.turns_setReg (l : Level) (r : Reg) (v : Word) : (s.setReg l r v).turns = s.turns := rfl
@[simp] theorem State.physWords_setReg (l : Level) (r : Reg) (v : Word) : (s.setReg l r v).physWords = s.physWords := rfl

/-! ### `setFlags` -/

@[simp] theorem State.ioni_setFlags (l : Level) (f : BitVec 8) : (s.setFlags l f).ioni = s.ioni := rfl
@[simp] theorem State.poni_setFlags (l : Level) (f : BitVec 8) : (s.setFlags l f).poni = s.poni := rfl
@[simp] theorem State.sexi_setFlags (l : Level) (f : BitVec 8) : (s.setFlags l f).sexi = s.sexi := rfl
@[simp] theorem State.pil_setFlags (l : Level) (f : BitVec 8) : (s.setFlags l f).pil = s.pil := rfl
@[simp] theorem State.pid_setFlags (l : Level) (f : BitVec 8) : (s.setFlags l f).pid = s.pid := rfl
@[simp] theorem State.pie_setFlags (l : Level) (f : BitVec 8) : (s.setFlags l f).pie = s.pie := rfl
@[simp] theorem State.iid_setFlags (l : Level) (f : BitVec 8) : (s.setFlags l f).iid = s.iid := rfl
@[simp] theorem State.iie_setFlags (l : Level) (f : BitVec 8) : (s.setFlags l f).iie = s.iie := rfl
@[simp] theorem State.pvl_setFlags (l : Level) (f : BitVec 8) : (s.setFlags l f).pvl = s.pvl := rfl
@[simp] theorem State.identChain_setFlags (l : Level) (f : BitVec 8) : (s.setFlags l f).identChain = s.identChain := rfl
@[simp] theorem State.pt_setFlags (l : Level) (f : BitVec 8) : (s.setFlags l f).pt = s.pt := rfl
@[simp] theorem State.pcr_setFlags (l : Level) (f : BitVec 8) : (s.setFlags l f).pcr = s.pcr := rfl
@[simp] theorem State.pgs_setFlags (l : Level) (f : BitVec 8) : (s.setFlags l f).pgs = s.pgs := rfl
@[simp] theorem State.runMode_setFlags (l : Level) (f : BitVec 8) : (s.setFlags l f).runMode = s.runMode := rfl
@[simp] theorem State.mem_setFlags (l : Level) (f : BitVec 8) : (s.setFlags l f).mem = s.mem := rfl
@[simp] theorem State.ext_setFlags (l : Level) (f : BitVec 8) : (s.setFlags l f).ext = s.ext := rfl
@[simp] theorem State.ioCount_setFlags (l : Level) (f : BitVec 8) : (s.setFlags l f).ioCount = s.ioCount := rfl
@[simp] theorem State.turns_setFlags (l : Level) (f : BitVec 8) : (s.setFlags l f).turns = s.turns := rfl
@[simp] theorem State.physWords_setFlags (l : Level) (f : BitVec 8) : (s.setFlags l f).physWords = s.physWords := rfl

/-! ### `setCur` -/

@[simp] theorem State.ioni_setCur (r : Reg) (v : Word) : (s.setCur r v).ioni = s.ioni := rfl
@[simp] theorem State.poni_setCur (r : Reg) (v : Word) : (s.setCur r v).poni = s.poni := rfl
@[simp] theorem State.sexi_setCur (r : Reg) (v : Word) : (s.setCur r v).sexi = s.sexi := rfl
@[simp] theorem State.pil_setCur (r : Reg) (v : Word) : (s.setCur r v).pil = s.pil := rfl
@[simp] theorem State.pid_setCur (r : Reg) (v : Word) : (s.setCur r v).pid = s.pid := rfl
@[simp] theorem State.pie_setCur (r : Reg) (v : Word) : (s.setCur r v).pie = s.pie := rfl
@[simp] theorem State.iid_setCur (r : Reg) (v : Word) : (s.setCur r v).iid = s.iid := rfl
@[simp] theorem State.iie_setCur (r : Reg) (v : Word) : (s.setCur r v).iie = s.iie := rfl
@[simp] theorem State.pvl_setCur (r : Reg) (v : Word) : (s.setCur r v).pvl = s.pvl := rfl
@[simp] theorem State.identChain_setCur (r : Reg) (v : Word) : (s.setCur r v).identChain = s.identChain := rfl
@[simp] theorem State.pt_setCur (r : Reg) (v : Word) : (s.setCur r v).pt = s.pt := rfl
@[simp] theorem State.pcr_setCur (r : Reg) (v : Word) : (s.setCur r v).pcr = s.pcr := rfl
@[simp] theorem State.pgs_setCur (r : Reg) (v : Word) : (s.setCur r v).pgs = s.pgs := rfl
@[simp] theorem State.runMode_setCur (r : Reg) (v : Word) : (s.setCur r v).runMode = s.runMode := rfl
@[simp] theorem State.mem_setCur (r : Reg) (v : Word) : (s.setCur r v).mem = s.mem := rfl
@[simp] theorem State.ext_setCur (r : Reg) (v : Word) : (s.setCur r v).ext = s.ext := rfl
@[simp] theorem State.ioCount_setCur (r : Reg) (v : Word) : (s.setCur r v).ioCount = s.ioCount := rfl
@[simp] theorem State.turns_setCur (r : Reg) (v : Word) : (s.setCur r v).turns = s.turns := rfl
@[simp] theorem State.physWords_setCur (r : Reg) (v : Word) : (s.setCur r v).physWords = s.physWords := rfl

/-! ### `setCurFlags` -/

@[simp] theorem State.ioni_setCurFlags (f : BitVec 8) : (s.setCurFlags f).ioni = s.ioni := rfl
@[simp] theorem State.poni_setCurFlags (f : BitVec 8) : (s.setCurFlags f).poni = s.poni := rfl
@[simp] theorem State.sexi_setCurFlags (f : BitVec 8) : (s.setCurFlags f).sexi = s.sexi := rfl
@[simp] theorem State.pil_setCurFlags (f : BitVec 8) : (s.setCurFlags f).pil = s.pil := rfl
@[simp] theorem State.pid_setCurFlags (f : BitVec 8) : (s.setCurFlags f).pid = s.pid := rfl
@[simp] theorem State.pie_setCurFlags (f : BitVec 8) : (s.setCurFlags f).pie = s.pie := rfl
@[simp] theorem State.iid_setCurFlags (f : BitVec 8) : (s.setCurFlags f).iid = s.iid := rfl
@[simp] theorem State.iie_setCurFlags (f : BitVec 8) : (s.setCurFlags f).iie = s.iie := rfl
@[simp] theorem State.pvl_setCurFlags (f : BitVec 8) : (s.setCurFlags f).pvl = s.pvl := rfl
@[simp] theorem State.identChain_setCurFlags (f : BitVec 8) : (s.setCurFlags f).identChain = s.identChain := rfl
@[simp] theorem State.pt_setCurFlags (f : BitVec 8) : (s.setCurFlags f).pt = s.pt := rfl
@[simp] theorem State.pcr_setCurFlags (f : BitVec 8) : (s.setCurFlags f).pcr = s.pcr := rfl
@[simp] theorem State.pgs_setCurFlags (f : BitVec 8) : (s.setCurFlags f).pgs = s.pgs := rfl
@[simp] theorem State.runMode_setCurFlags (f : BitVec 8) : (s.setCurFlags f).runMode = s.runMode := rfl
@[simp] theorem State.mem_setCurFlags (f : BitVec 8) : (s.setCurFlags f).mem = s.mem := rfl
@[simp] theorem State.ext_setCurFlags (f : BitVec 8) : (s.setCurFlags f).ext = s.ext := rfl
@[simp] theorem State.ioCount_setCurFlags (f : BitVec 8) : (s.setCurFlags f).ioCount = s.ioCount := rfl
@[simp] theorem State.turns_setCurFlags (f : BitVec 8) : (s.setCurFlags f).turns = s.turns := rfl
@[simp] theorem State.physWords_setCurFlags (f : BitVec 8) : (s.setCurFlags f).physWords = s.physWords := rfl

/-! ### `setFlag` -/

@[simp] theorem State.ioni_setFlag (g : Flag) (v : Bool) : (s.setFlag g v).ioni = s.ioni := rfl
@[simp] theorem State.poni_setFlag (g : Flag) (v : Bool) : (s.setFlag g v).poni = s.poni := rfl
@[simp] theorem State.sexi_setFlag (g : Flag) (v : Bool) : (s.setFlag g v).sexi = s.sexi := rfl
@[simp] theorem State.pil_setFlag (g : Flag) (v : Bool) : (s.setFlag g v).pil = s.pil := rfl
@[simp] theorem State.pid_setFlag (g : Flag) (v : Bool) : (s.setFlag g v).pid = s.pid := rfl
@[simp] theorem State.pie_setFlag (g : Flag) (v : Bool) : (s.setFlag g v).pie = s.pie := rfl
@[simp] theorem State.iid_setFlag (g : Flag) (v : Bool) : (s.setFlag g v).iid = s.iid := rfl
@[simp] theorem State.iie_setFlag (g : Flag) (v : Bool) : (s.setFlag g v).iie = s.iie := rfl
@[simp] theorem State.pvl_setFlag (g : Flag) (v : Bool) : (s.setFlag g v).pvl = s.pvl := rfl
@[simp] theorem State.identChain_setFlag (g : Flag) (v : Bool) : (s.setFlag g v).identChain = s.identChain := rfl
@[simp] theorem State.pt_setFlag (g : Flag) (v : Bool) : (s.setFlag g v).pt = s.pt := rfl
@[simp] theorem State.pcr_setFlag (g : Flag) (v : Bool) : (s.setFlag g v).pcr = s.pcr := rfl
@[simp] theorem State.pgs_setFlag (g : Flag) (v : Bool) : (s.setFlag g v).pgs = s.pgs := rfl
@[simp] theorem State.runMode_setFlag (g : Flag) (v : Bool) : (s.setFlag g v).runMode = s.runMode := rfl
@[simp] theorem State.mem_setFlag (g : Flag) (v : Bool) : (s.setFlag g v).mem = s.mem := rfl
@[simp] theorem State.ext_setFlag (g : Flag) (v : Bool) : (s.setFlag g v).ext = s.ext := rfl
@[simp] theorem State.ioCount_setFlag (g : Flag) (v : Bool) : (s.setFlag g v).ioCount = s.ioCount := rfl
@[simp] theorem State.turns_setFlag (g : Flag) (v : Bool) : (s.setFlag g v).turns = s.turns := rfl
@[simp] theorem State.physWords_setFlag (g : Flag) (v : Bool) : (s.setFlag g v).physWords = s.physWords := rfl

/-! ### `overflowFlags` -/

@[simp] theorem State.ioni_overflowFlags (b : Bool) : (s.overflowFlags b).ioni = s.ioni := rfl
@[simp] theorem State.poni_overflowFlags (b : Bool) : (s.overflowFlags b).poni = s.poni := rfl
@[simp] theorem State.sexi_overflowFlags (b : Bool) : (s.overflowFlags b).sexi = s.sexi := rfl
@[simp] theorem State.pil_overflowFlags (b : Bool) : (s.overflowFlags b).pil = s.pil := rfl
@[simp] theorem State.pid_overflowFlags (b : Bool) : (s.overflowFlags b).pid = s.pid := rfl
@[simp] theorem State.pie_overflowFlags (b : Bool) : (s.overflowFlags b).pie = s.pie := rfl
@[simp] theorem State.iid_overflowFlags (b : Bool) : (s.overflowFlags b).iid = s.iid := rfl
@[simp] theorem State.iie_overflowFlags (b : Bool) : (s.overflowFlags b).iie = s.iie := rfl
@[simp] theorem State.pvl_overflowFlags (b : Bool) : (s.overflowFlags b).pvl = s.pvl := rfl
@[simp] theorem State.identChain_overflowFlags (b : Bool) : (s.overflowFlags b).identChain = s.identChain := rfl
@[simp] theorem State.pt_overflowFlags (b : Bool) : (s.overflowFlags b).pt = s.pt := rfl
@[simp] theorem State.pcr_overflowFlags (b : Bool) : (s.overflowFlags b).pcr = s.pcr := rfl
@[simp] theorem State.pgs_overflowFlags (b : Bool) : (s.overflowFlags b).pgs = s.pgs := rfl
@[simp] theorem State.runMode_overflowFlags (b : Bool) : (s.overflowFlags b).runMode = s.runMode := rfl
@[simp] theorem State.mem_overflowFlags (b : Bool) : (s.overflowFlags b).mem = s.mem := rfl
@[simp] theorem State.ext_overflowFlags (b : Bool) : (s.overflowFlags b).ext = s.ext := rfl
@[simp] theorem State.ioCount_overflowFlags (b : Bool) : (s.overflowFlags b).ioCount = s.ioCount := rfl
@[simp] theorem State.turns_overflowFlags (b : Bool) : (s.overflowFlags b).turns = s.turns := rfl
@[simp] theorem State.physWords_overflowFlags (b : Bool) : (s.overflowFlags b).physWords = s.physWords := rfl

/-! ### `addFlags` -/

@[simp] theorem State.ioni_addFlags (a b : Word) (c : Bool) : (s.addFlags a b c).ioni = s.ioni := rfl
@[simp] theorem State.poni_addFlags (a b : Word) (c : Bool) : (s.addFlags a b c).poni = s.poni := rfl
@[simp] theorem State.sexi_addFlags (a b : Word) (c : Bool) : (s.addFlags a b c).sexi = s.sexi := rfl
@[simp] theorem State.pil_addFlags (a b : Word) (c : Bool) : (s.addFlags a b c).pil = s.pil := rfl
@[simp] theorem State.pid_addFlags (a b : Word) (c : Bool) : (s.addFlags a b c).pid = s.pid := rfl
@[simp] theorem State.pie_addFlags (a b : Word) (c : Bool) : (s.addFlags a b c).pie = s.pie := rfl
@[simp] theorem State.iid_addFlags (a b : Word) (c : Bool) : (s.addFlags a b c).iid = s.iid := rfl
@[simp] theorem State.iie_addFlags (a b : Word) (c : Bool) : (s.addFlags a b c).iie = s.iie := rfl
@[simp] theorem State.pvl_addFlags (a b : Word) (c : Bool) : (s.addFlags a b c).pvl = s.pvl := rfl
@[simp] theorem State.identChain_addFlags (a b : Word) (c : Bool) : (s.addFlags a b c).identChain = s.identChain := rfl
@[simp] theorem State.pt_addFlags (a b : Word) (c : Bool) : (s.addFlags a b c).pt = s.pt := rfl
@[simp] theorem State.pcr_addFlags (a b : Word) (c : Bool) : (s.addFlags a b c).pcr = s.pcr := rfl
@[simp] theorem State.pgs_addFlags (a b : Word) (c : Bool) : (s.addFlags a b c).pgs = s.pgs := rfl
@[simp] theorem State.runMode_addFlags (a b : Word) (c : Bool) : (s.addFlags a b c).runMode = s.runMode := rfl
@[simp] theorem State.mem_addFlags (a b : Word) (c : Bool) : (s.addFlags a b c).mem = s.mem := rfl
@[simp] theorem State.ext_addFlags (a b : Word) (c : Bool) : (s.addFlags a b c).ext = s.ext := rfl
@[simp] theorem State.ioCount_addFlags (a b : Word) (c : Bool) : (s.addFlags a b c).ioCount = s.ioCount := rfl
@[simp] theorem State.turns_addFlags (a b : Word) (c : Bool) : (s.addFlags a b c).turns = s.turns := rfl
@[simp] theorem State.physWords_addFlags (a b : Word) (c : Bool) : (s.addFlags a b c).physWords = s.physWords := rfl

/-! ### `addTo` -/

@[simp] theorem State.ioni_addTo (r : Reg) (b : Word) (c : Bool) : (s.addTo r b c).ioni = s.ioni := rfl
@[simp] theorem State.poni_addTo (r : Reg) (b : Word) (c : Bool) : (s.addTo r b c).poni = s.poni := rfl
@[simp] theorem State.sexi_addTo (r : Reg) (b : Word) (c : Bool) : (s.addTo r b c).sexi = s.sexi := rfl
@[simp] theorem State.pil_addTo (r : Reg) (b : Word) (c : Bool) : (s.addTo r b c).pil = s.pil := rfl
@[simp] theorem State.pid_addTo (r : Reg) (b : Word) (c : Bool) : (s.addTo r b c).pid = s.pid := rfl
@[simp] theorem State.pie_addTo (r : Reg) (b : Word) (c : Bool) : (s.addTo r b c).pie = s.pie := rfl
@[simp] theorem State.iid_addTo (r : Reg) (b : Word) (c : Bool) : (s.addTo r b c).iid = s.iid := rfl
@[simp] theorem State.iie_addTo (r : Reg) (b : Word) (c : Bool) : (s.addTo r b c).iie = s.iie := rfl
@[simp] theorem State.pvl_addTo (r : Reg) (b : Word) (c : Bool) : (s.addTo r b c).pvl = s.pvl := rfl
@[simp] theorem State.identChain_addTo (r : Reg) (b : Word) (c : Bool) : (s.addTo r b c).identChain = s.identChain := rfl
@[simp] theorem State.pt_addTo (r : Reg) (b : Word) (c : Bool) : (s.addTo r b c).pt = s.pt := rfl
@[simp] theorem State.pcr_addTo (r : Reg) (b : Word) (c : Bool) : (s.addTo r b c).pcr = s.pcr := rfl
@[simp] theorem State.pgs_addTo (r : Reg) (b : Word) (c : Bool) : (s.addTo r b c).pgs = s.pgs := rfl
@[simp] theorem State.runMode_addTo (r : Reg) (b : Word) (c : Bool) : (s.addTo r b c).runMode = s.runMode := rfl
@[simp] theorem State.mem_addTo (r : Reg) (b : Word) (c : Bool) : (s.addTo r b c).mem = s.mem := rfl
@[simp] theorem State.ext_addTo (r : Reg) (b : Word) (c : Bool) : (s.addTo r b c).ext = s.ext := rfl
@[simp] theorem State.ioCount_addTo (r : Reg) (b : Word) (c : Bool) : (s.addTo r b c).ioCount = s.ioCount := rfl
@[simp] theorem State.turns_addTo (r : Reg) (b : Word) (c : Bool) : (s.addTo r b c).turns = s.turns := rfl
@[simp] theorem State.physWords_addTo (r : Reg) (b : Word) (c : Bool) : (s.addTo r b c).physWords = s.physWords := rfl

/-! ### `jump` -/

@[simp] theorem State.ioni_jump (v : Word) : (s.jump v).ioni = s.ioni := rfl
@[simp] theorem State.poni_jump (v : Word) : (s.jump v).poni = s.poni := rfl
@[simp] theorem State.sexi_jump (v : Word) : (s.jump v).sexi = s.sexi := rfl
@[simp] theorem State.pil_jump (v : Word) : (s.jump v).pil = s.pil := rfl
@[simp] theorem State.pid_jump (v : Word) : (s.jump v).pid = s.pid := rfl
@[simp] theorem State.pie_jump (v : Word) : (s.jump v).pie = s.pie := rfl
@[simp] theorem State.iid_jump (v : Word) : (s.jump v).iid = s.iid := rfl
@[simp] theorem State.iie_jump (v : Word) : (s.jump v).iie = s.iie := rfl
@[simp] theorem State.pvl_jump (v : Word) : (s.jump v).pvl = s.pvl := rfl
@[simp] theorem State.identChain_jump (v : Word) : (s.jump v).identChain = s.identChain := rfl
@[simp] theorem State.pt_jump (v : Word) : (s.jump v).pt = s.pt := rfl
@[simp] theorem State.pcr_jump (v : Word) : (s.jump v).pcr = s.pcr := rfl
@[simp] theorem State.pgs_jump (v : Word) : (s.jump v).pgs = s.pgs := rfl
@[simp] theorem State.runMode_jump (v : Word) : (s.jump v).runMode = s.runMode := rfl
@[simp] theorem State.mem_jump (v : Word) : (s.jump v).mem = s.mem := rfl
@[simp] theorem State.ext_jump (v : Word) : (s.jump v).ext = s.ext := rfl
@[simp] theorem State.ioCount_jump (v : Word) : (s.jump v).ioCount = s.ioCount := rfl
@[simp] theorem State.turns_jump (v : Word) : (s.jump v).turns = s.turns := rfl
@[simp] theorem State.physWords_jump (v : Word) : (s.jump v).physWords = s.physWords := rfl

/-! ### `next` -/

@[simp] theorem State.ioni_next : (s.next).ioni = s.ioni := rfl
@[simp] theorem State.poni_next : (s.next).poni = s.poni := rfl
@[simp] theorem State.sexi_next : (s.next).sexi = s.sexi := rfl
@[simp] theorem State.pil_next : (s.next).pil = s.pil := rfl
@[simp] theorem State.pid_next : (s.next).pid = s.pid := rfl
@[simp] theorem State.pie_next : (s.next).pie = s.pie := rfl
@[simp] theorem State.iid_next : (s.next).iid = s.iid := rfl
@[simp] theorem State.iie_next : (s.next).iie = s.iie := rfl
@[simp] theorem State.pvl_next : (s.next).pvl = s.pvl := rfl
@[simp] theorem State.identChain_next : (s.next).identChain = s.identChain := rfl
@[simp] theorem State.pt_next : (s.next).pt = s.pt := rfl
@[simp] theorem State.pcr_next : (s.next).pcr = s.pcr := rfl
@[simp] theorem State.pgs_next : (s.next).pgs = s.pgs := rfl
@[simp] theorem State.runMode_next : (s.next).runMode = s.runMode := rfl
@[simp] theorem State.mem_next : (s.next).mem = s.mem := rfl
@[simp] theorem State.ext_next : (s.next).ext = s.ext := rfl
@[simp] theorem State.ioCount_next : (s.next).ioCount = s.ioCount := rfl
@[simp] theorem State.turns_next : (s.next).turns = s.turns := rfl
@[simp] theorem State.physWords_next : (s.next).physWords = s.physWords := rfl

/-! ### `skip` -/

@[simp] theorem State.ioni_skip : (s.skip).ioni = s.ioni := rfl
@[simp] theorem State.poni_skip : (s.skip).poni = s.poni := rfl
@[simp] theorem State.sexi_skip : (s.skip).sexi = s.sexi := rfl
@[simp] theorem State.pil_skip : (s.skip).pil = s.pil := rfl
@[simp] theorem State.pid_skip : (s.skip).pid = s.pid := rfl
@[simp] theorem State.pie_skip : (s.skip).pie = s.pie := rfl
@[simp] theorem State.iid_skip : (s.skip).iid = s.iid := rfl
@[simp] theorem State.iie_skip : (s.skip).iie = s.iie := rfl
@[simp] theorem State.pvl_skip : (s.skip).pvl = s.pvl := rfl
@[simp] theorem State.identChain_skip : (s.skip).identChain = s.identChain := rfl
@[simp] theorem State.pt_skip : (s.skip).pt = s.pt := rfl
@[simp] theorem State.pcr_skip : (s.skip).pcr = s.pcr := rfl
@[simp] theorem State.pgs_skip : (s.skip).pgs = s.pgs := rfl
@[simp] theorem State.runMode_skip : (s.skip).runMode = s.runMode := rfl
@[simp] theorem State.mem_skip : (s.skip).mem = s.mem := rfl
@[simp] theorem State.ext_skip : (s.skip).ext = s.ext := rfl
@[simp] theorem State.ioCount_skip : (s.skip).ioCount = s.ioCount := rfl
@[simp] theorem State.turns_skip : (s.skip).turns = s.turns := rfl
@[simp] theorem State.physWords_skip : (s.skip).physWords = s.physWords := rfl

/-! ### `setPte` -/

@[simp] theorem State.banks_setPte (t : BitVec 2) (i : BitVec 6) (e : Pte) : (s.setPte t i e).banks = s.banks := rfl
@[simp] theorem State.ioni_setPte (t : BitVec 2) (i : BitVec 6) (e : Pte) : (s.setPte t i e).ioni = s.ioni := rfl
@[simp] theorem State.poni_setPte (t : BitVec 2) (i : BitVec 6) (e : Pte) : (s.setPte t i e).poni = s.poni := rfl
@[simp] theorem State.sexi_setPte (t : BitVec 2) (i : BitVec 6) (e : Pte) : (s.setPte t i e).sexi = s.sexi := rfl
@[simp] theorem State.pil_setPte (t : BitVec 2) (i : BitVec 6) (e : Pte) : (s.setPte t i e).pil = s.pil := rfl
@[simp] theorem State.pid_setPte (t : BitVec 2) (i : BitVec 6) (e : Pte) : (s.setPte t i e).pid = s.pid := rfl
@[simp] theorem State.pie_setPte (t : BitVec 2) (i : BitVec 6) (e : Pte) : (s.setPte t i e).pie = s.pie := rfl
@[simp] theorem State.iid_setPte (t : BitVec 2) (i : BitVec 6) (e : Pte) : (s.setPte t i e).iid = s.iid := rfl
@[simp] theorem State.iie_setPte (t : BitVec 2) (i : BitVec 6) (e : Pte) : (s.setPte t i e).iie = s.iie := rfl
@[simp] theorem State.pvl_setPte (t : BitVec 2) (i : BitVec 6) (e : Pte) : (s.setPte t i e).pvl = s.pvl := rfl
@[simp] theorem State.identChain_setPte (t : BitVec 2) (i : BitVec 6) (e : Pte) : (s.setPte t i e).identChain = s.identChain := rfl
@[simp] theorem State.pcr_setPte (t : BitVec 2) (i : BitVec 6) (e : Pte) : (s.setPte t i e).pcr = s.pcr := rfl
@[simp] theorem State.pgs_setPte (t : BitVec 2) (i : BitVec 6) (e : Pte) : (s.setPte t i e).pgs = s.pgs := rfl
@[simp] theorem State.runMode_setPte (t : BitVec 2) (i : BitVec 6) (e : Pte) : (s.setPte t i e).runMode = s.runMode := rfl
@[simp] theorem State.mem_setPte (t : BitVec 2) (i : BitVec 6) (e : Pte) : (s.setPte t i e).mem = s.mem := rfl
@[simp] theorem State.ext_setPte (t : BitVec 2) (i : BitVec 6) (e : Pte) : (s.setPte t i e).ext = s.ext := rfl
@[simp] theorem State.ioCount_setPte (t : BitVec 2) (i : BitVec 6) (e : Pte) : (s.setPte t i e).ioCount = s.ioCount := rfl
@[simp] theorem State.turns_setPte (t : BitVec 2) (i : BitVec 6) (e : Pte) : (s.setPte t i e).turns = s.turns := rfl
@[simp] theorem State.physWords_setPte (t : BitVec 2) (i : BitVec 6) (e : Pte) : (s.setPte t i e).physWords = s.physWords := rfl

/-! ### `setPcr` -/

@[simp] theorem State.banks_setPcr (l : Level) (v : Word) : (s.setPcr l v).banks = s.banks := rfl
@[simp] theorem State.ioni_setPcr (l : Level) (v : Word) : (s.setPcr l v).ioni = s.ioni := rfl
@[simp] theorem State.poni_setPcr (l : Level) (v : Word) : (s.setPcr l v).poni = s.poni := rfl
@[simp] theorem State.sexi_setPcr (l : Level) (v : Word) : (s.setPcr l v).sexi = s.sexi := rfl
@[simp] theorem State.pil_setPcr (l : Level) (v : Word) : (s.setPcr l v).pil = s.pil := rfl
@[simp] theorem State.pid_setPcr (l : Level) (v : Word) : (s.setPcr l v).pid = s.pid := rfl
@[simp] theorem State.pie_setPcr (l : Level) (v : Word) : (s.setPcr l v).pie = s.pie := rfl
@[simp] theorem State.iid_setPcr (l : Level) (v : Word) : (s.setPcr l v).iid = s.iid := rfl
@[simp] theorem State.iie_setPcr (l : Level) (v : Word) : (s.setPcr l v).iie = s.iie := rfl
@[simp] theorem State.pvl_setPcr (l : Level) (v : Word) : (s.setPcr l v).pvl = s.pvl := rfl
@[simp] theorem State.identChain_setPcr (l : Level) (v : Word) : (s.setPcr l v).identChain = s.identChain := rfl
@[simp] theorem State.pt_setPcr (l : Level) (v : Word) : (s.setPcr l v).pt = s.pt := rfl
@[simp] theorem State.pgs_setPcr (l : Level) (v : Word) : (s.setPcr l v).pgs = s.pgs := rfl
@[simp] theorem State.runMode_setPcr (l : Level) (v : Word) : (s.setPcr l v).runMode = s.runMode := rfl
@[simp] theorem State.mem_setPcr (l : Level) (v : Word) : (s.setPcr l v).mem = s.mem := rfl
@[simp] theorem State.ext_setPcr (l : Level) (v : Word) : (s.setPcr l v).ext = s.ext := rfl
@[simp] theorem State.ioCount_setPcr (l : Level) (v : Word) : (s.setPcr l v).ioCount = s.ioCount := rfl
@[simp] theorem State.turns_setPcr (l : Level) (v : Word) : (s.setPcr l v).turns = s.turns := rfl
@[simp] theorem State.physWords_setPcr (l : Level) (v : Word) : (s.setPcr l v).physWords = s.physWords := rfl

/-! ### `setExternal` -/

@[simp] theorem State.banks_setExternal (n : BitVec 4) (v : Word) : (s.setExternal n v).banks = s.banks := rfl
@[simp] theorem State.ioni_setExternal (n : BitVec 4) (v : Word) : (s.setExternal n v).ioni = s.ioni := rfl
@[simp] theorem State.poni_setExternal (n : BitVec 4) (v : Word) : (s.setExternal n v).poni = s.poni := rfl
@[simp] theorem State.sexi_setExternal (n : BitVec 4) (v : Word) : (s.setExternal n v).sexi = s.sexi := rfl
@[simp] theorem State.pil_setExternal (n : BitVec 4) (v : Word) : (s.setExternal n v).pil = s.pil := rfl
@[simp] theorem State.pid_setExternal (n : BitVec 4) (v : Word) : (s.setExternal n v).pid = s.pid := rfl
@[simp] theorem State.pie_setExternal (n : BitVec 4) (v : Word) : (s.setExternal n v).pie = s.pie := rfl
@[simp] theorem State.iid_setExternal (n : BitVec 4) (v : Word) : (s.setExternal n v).iid = s.iid := rfl
@[simp] theorem State.iie_setExternal (n : BitVec 4) (v : Word) : (s.setExternal n v).iie = s.iie := rfl
@[simp] theorem State.pvl_setExternal (n : BitVec 4) (v : Word) : (s.setExternal n v).pvl = s.pvl := rfl
@[simp] theorem State.identChain_setExternal (n : BitVec 4) (v : Word) : (s.setExternal n v).identChain = s.identChain := rfl
@[simp] theorem State.pt_setExternal (n : BitVec 4) (v : Word) : (s.setExternal n v).pt = s.pt := rfl
@[simp] theorem State.pcr_setExternal (n : BitVec 4) (v : Word) : (s.setExternal n v).pcr = s.pcr := rfl
@[simp] theorem State.pgs_setExternal (n : BitVec 4) (v : Word) : (s.setExternal n v).pgs = s.pgs := rfl
@[simp] theorem State.runMode_setExternal (n : BitVec 4) (v : Word) : (s.setExternal n v).runMode = s.runMode := rfl
@[simp] theorem State.mem_setExternal (n : BitVec 4) (v : Word) : (s.setExternal n v).mem = s.mem := rfl
@[simp] theorem State.ioCount_setExternal (n : BitVec 4) (v : Word) : (s.setExternal n v).ioCount = s.ioCount := rfl
@[simp] theorem State.turns_setExternal (n : BitVec 4) (v : Word) : (s.setExternal n v).turns = s.turns := rfl
@[simp] theorem State.physWords_setExternal (n : BitVec 4) (v : Word) : (s.setExternal n v).physWords = s.physWords := rfl

/-! ### `setPhys` -/

@[simp] theorem State.banks_setPhys (pa : PhysAddr) (v : Word) : (s.setPhys pa v).banks = s.banks := rfl
@[simp] theorem State.ioni_setPhys (pa : PhysAddr) (v : Word) : (s.setPhys pa v).ioni = s.ioni := rfl
@[simp] theorem State.poni_setPhys (pa : PhysAddr) (v : Word) : (s.setPhys pa v).poni = s.poni := rfl
@[simp] theorem State.sexi_setPhys (pa : PhysAddr) (v : Word) : (s.setPhys pa v).sexi = s.sexi := rfl
@[simp] theorem State.pil_setPhys (pa : PhysAddr) (v : Word) : (s.setPhys pa v).pil = s.pil := rfl
@[simp] theorem State.pid_setPhys (pa : PhysAddr) (v : Word) : (s.setPhys pa v).pid = s.pid := rfl
@[simp] theorem State.pie_setPhys (pa : PhysAddr) (v : Word) : (s.setPhys pa v).pie = s.pie := rfl
@[simp] theorem State.iid_setPhys (pa : PhysAddr) (v : Word) : (s.setPhys pa v).iid = s.iid := rfl
@[simp] theorem State.iie_setPhys (pa : PhysAddr) (v : Word) : (s.setPhys pa v).iie = s.iie := rfl
@[simp] theorem State.pvl_setPhys (pa : PhysAddr) (v : Word) : (s.setPhys pa v).pvl = s.pvl := rfl
@[simp] theorem State.identChain_setPhys (pa : PhysAddr) (v : Word) : (s.setPhys pa v).identChain = s.identChain := rfl
@[simp] theorem State.pt_setPhys (pa : PhysAddr) (v : Word) : (s.setPhys pa v).pt = s.pt := rfl
@[simp] theorem State.pcr_setPhys (pa : PhysAddr) (v : Word) : (s.setPhys pa v).pcr = s.pcr := rfl
@[simp] theorem State.pgs_setPhys (pa : PhysAddr) (v : Word) : (s.setPhys pa v).pgs = s.pgs := rfl
@[simp] theorem State.runMode_setPhys (pa : PhysAddr) (v : Word) : (s.setPhys pa v).runMode = s.runMode := rfl
@[simp] theorem State.ext_setPhys (pa : PhysAddr) (v : Word) : (s.setPhys pa v).ext = s.ext := rfl
@[simp] theorem State.ioCount_setPhys (pa : PhysAddr) (v : Word) : (s.setPhys pa v).ioCount = s.ioCount := rfl
@[simp] theorem State.turns_setPhys (pa : PhysAddr) (v : Word) : (s.setPhys pa v).turns = s.turns := rfl
@[simp] theorem State.physWords_setPhys (pa : PhysAddr) (v : Word) : (s.setPhys pa v).physWords = s.physWords := rfl

/-! ### `giveUp` -/

@[simp] theorem State.banks_giveUp : (s.giveUp).banks = s.banks := rfl
@[simp] theorem State.ioni_giveUp : (s.giveUp).ioni = s.ioni := rfl
@[simp] theorem State.poni_giveUp : (s.giveUp).poni = s.poni := rfl
@[simp] theorem State.sexi_giveUp : (s.giveUp).sexi = s.sexi := rfl
@[simp] theorem State.pil_giveUp : (s.giveUp).pil = s.pil := rfl
@[simp] theorem State.pie_giveUp : (s.giveUp).pie = s.pie := rfl
@[simp] theorem State.iid_giveUp : (s.giveUp).iid = s.iid := rfl
@[simp] theorem State.iie_giveUp : (s.giveUp).iie = s.iie := rfl
@[simp] theorem State.pvl_giveUp : (s.giveUp).pvl = s.pvl := rfl
@[simp] theorem State.identChain_giveUp : (s.giveUp).identChain = s.identChain := rfl
@[simp] theorem State.pt_giveUp : (s.giveUp).pt = s.pt := rfl
@[simp] theorem State.pcr_giveUp : (s.giveUp).pcr = s.pcr := rfl
@[simp] theorem State.pgs_giveUp : (s.giveUp).pgs = s.pgs := rfl
@[simp] theorem State.runMode_giveUp : (s.giveUp).runMode = s.runMode := rfl
@[simp] theorem State.mem_giveUp : (s.giveUp).mem = s.mem := rfl
@[simp] theorem State.ext_giveUp : (s.giveUp).ext = s.ext := rfl
@[simp] theorem State.ioCount_giveUp : (s.giveUp).ioCount = s.ioCount := rfl
@[simp] theorem State.turns_giveUp : (s.giveUp).turns = s.turns := rfl
@[simp] theorem State.physWords_giveUp : (s.giveUp).physWords = s.physWords := rfl

end Sys2Proof.Machine
end

