-- ==== Sys2Proof/Laws/Registers.lean ====
section
/-! SUPPORT. Reading a register, flag, page-table entry or page-control register after writing one. -/

namespace Sys2Proof.Machine

/-! ### Bits -/

theorem getLsbD_setBitTo {w : Nat} (bits : BitVec w) (i j : Nat) (v : Bool) (hj : j < w) :
    (setBitTo bits i v).getLsbD j = if j = i then v else bits.getLsbD j := by
  cases v <;> simp only [setBitTo] <;> by_cases h : j = i
  · subst h; simp [hj]
  · by_cases hlt : j < i
    · simp [h, hj, hlt]
    · have : j - i ≠ 0 := by omega
      simp [h, hj, this]
  · subst h; simp [hj]
  · by_cases hlt : j < i
    · simp [h, hj, hlt]
    · have : j - i ≠ 0 := by omega
      simp [h, hj, this]

theorem getLsbD_setBitTo_same {w : Nat} (bits : BitVec w) (i : Nat) (v : Bool) (hi : i < w) :
    (setBitTo bits i v).getLsbD i = v := by
  rw [getLsbD_setBitTo _ _ _ _ hi, if_pos rfl]

theorem getLsbD_setBitTo_ne {w : Nat} (bits : BitVec w) (i j : Nat) (v : Bool) (h : j ≠ i) :
    (setBitTo bits i v).getLsbD j = bits.getLsbD j := by
  by_cases hj : j < w
  · rw [getLsbD_setBitTo _ _ _ _ hj, if_neg h]
  · rw [BitVec.getLsbD_of_ge _ _ (Nat.le_of_not_lt hj), BitVec.getLsbD_of_ge _ _ (Nat.le_of_not_lt hj)]

/-! ### Flags of a flags byte -/

theorem Flag.bit_lt (g : Flag) : g.bit < 8 := by cases g <;> decide

theorem Flag.bit_inj {g h : Flag} (e : g.bit = h.bit) : g = h := by
  cases g <;> cases h <;> first | rfl | (exact absurd e (by decide))

theorem flagOf_withFlag (f : BitVec 8) (g h : Flag) (v : Bool) :
    flagOf (withFlag f g v) h = if h = g then v else flagOf f h := by
  unfold flagOf withFlag
  by_cases e : h = g
  · subst e; rw [getLsbD_setBitTo_same _ _ _ (Flag.bit_lt _), if_pos rfl]
  · have : h.bit ≠ g.bit := fun b => e (Flag.bit_inj b)
    rw [getLsbD_setBitTo_ne _ _ _ _ this, if_neg e]

@[simp] theorem flagOf_withFlag_same (f : BitVec 8) (g : Flag) (v : Bool) :
    flagOf (withFlag f g v) g = v := by simp [flagOf_withFlag]

/-! ### Banks -/

@[simp] theorem Bank.get_set (k : Bank) (r q : Reg) (v : Word) :
    (k.set r v).get q = if q = r then v else k.get q := by
  cases r <;> cases q <;> rfl

@[simp] theorem Bank.flags_set (k : Bank) (r : Reg) (v : Word) : (k.set r v).flags = k.flags := by
  cases r <;> rfl

@[simp] theorem Bank.scratch_set (k : Bank) (r : Reg) (v : Word) :
    (k.set r v).scratch = k.scratch := by
  cases r <;> rfl

@[simp] theorem Bank.get_withFlags (k : Bank) (q : Reg) (f : BitVec 8) :
    ({ k with flags := f } : Bank).get q = k.get q := by
  cases q <;> rfl

@[simp] theorem State.bank_setBank (s : State) (l m : Level) (k : Bank) :
    (s.setBank l k).bank m = if m = l then k else s.bank m := by
  unfold State.bank State.setBank
  by_cases h : m = l
  · subst h; simp
  · have : l.toNat ≠ m.toNat := fun e => h (BitVec.eq_of_toNat_eq e).symm
    simp [h, this]

@[simp] theorem State.bank_setReg (s : State) (l m : Level) (r : Reg) (v : Word) :
    (s.setReg l r v).bank m = if m = l then (s.bank l).set r v else s.bank m := by
  simp [State.setReg]

@[simp] theorem State.bank_setFlags (s : State) (l m : Level) (f : BitVec 8) :
    (s.setFlags l f).bank m = if m = l then { s.bank l with flags := f } else s.bank m := by
  simp [State.setFlags]

/-- Reading a register after writing one. -/
theorem State.reg_setReg (s : State) (l m : Level) (r q : Reg) (v : Word) :
    (s.setReg l r v).reg m q = if m = l ∧ q = r then v else s.reg m q := by
  unfold State.reg
  by_cases h : m = l
  · subst h; simp
  · simp [h]

@[simp] theorem State.reg_setReg_same (s : State) (l : Level) (r : Reg) (v : Word) :
    (s.setReg l r v).reg l r = v := by simp [State.reg_setReg]

@[simp] theorem State.reg_setFlags (s : State) (l m : Level) (q : Reg) (f : BitVec 8) :
    (s.setFlags l f).reg m q = s.reg m q := by
  unfold State.reg
  by_cases h : m = l
  · subst h; simp
  · simp [h]

@[simp] theorem State.flags_setReg (s : State) (l m : Level) (r : Reg) (v : Word) :
    (s.setReg l r v).flags m = s.flags m := by
  unfold State.flags
  by_cases h : m = l
  · subst h; simp
  · simp [h]

@[simp] theorem State.flags_setFlags (s : State) (l m : Level) (f : BitVec 8) :
    (s.setFlags l f).flags m = if m = l then f else s.flags m := by
  unfold State.flags
  by_cases h : m = l
  · subst h; simp
  · simp [h]

/-- The scratch registers of a level: 8 to 15 (10_state.md R12). -/
@[simp] theorem State.scratch_setReg (s : State) (l m : Level) (r : Reg) (v : Word) :
    ((s.setReg l r v).bank m).scratch = (s.bank m).scratch := by
  by_cases h : m = l
  · subst h; simp
  · simp [h]

@[simp] theorem State.scratch_setFlags (s : State) (l m : Level) (f : BitVec 8) :
    ((s.setFlags l f).bank m).scratch = (s.bank m).scratch := by
  by_cases h : m = l
  · subst h; simp
  · simp [h]

/-! ### The current level -/

theorem State.cur_eq (s : State) (r : Reg) : s.cur r = s.reg s.pil r := rfl

theorem State.curFlags_eq (s : State) : s.curFlags = s.flags s.pil := rfl

@[simp] theorem State.cur_setCur (s : State) (r q : Reg) (v : Word) :
    (s.setCur r v).cur q = if q = r then v else s.cur q := by
  simp only [State.cur, State.setCur, State.pil_setReg, State.reg_setReg, true_and]

@[simp] theorem State.cur_setCurFlags (s : State) (q : Reg) (f : BitVec 8) :
    (s.setCurFlags f).cur q = s.cur q := by simp [State.cur, State.setCurFlags]

@[simp] theorem State.curFlags_setCur (s : State) (r : Reg) (v : Word) :
    (s.setCur r v).curFlags = s.curFlags := by simp [State.curFlags, State.setCur]

@[simp] theorem State.curFlags_setCurFlags (s : State) (f : BitVec 8) :
    (s.setCurFlags f).curFlags = f := by simp [State.curFlags, State.setCurFlags]

@[simp] theorem State.cur_setFlag (s : State) (q : Reg) (g : Flag) (v : Bool) :
    (s.setFlag g v).cur q = s.cur q := by simp [State.setFlag]

@[simp] theorem State.flag_setCur (s : State) (r : Reg) (v : Word) (g : Flag) :
    (s.setCur r v).flag g = s.flag g := by simp [State.flag]

@[simp] theorem State.flag_setFlag (s : State) (g h : Flag) (v : Bool) :
    (s.setFlag g v).flag h = if h = g then v else s.flag h := by
  simp [State.flag, State.setFlag, flagOf_withFlag]

@[simp] theorem State.cur_jump (s : State) (q : Reg) (v : Word) :
    (s.jump v).cur q = if q = .p then v else s.cur q := by simp [State.jump]

@[simp] theorem State.curFlags_jump (s : State) (v : Word) : (s.jump v).curFlags = s.curFlags := by
  simp [State.jump]

@[simp] theorem State.cur_next (s : State) (q : Reg) :
    s.next.cur q = if q = .p then s.cur .p + 1 else s.cur q := by simp [State.next]

@[simp] theorem State.curFlags_next (s : State) : s.next.curFlags = s.curFlags := by
  simp [State.next]

@[simp] theorem State.cur_skip (s : State) (q : Reg) :
    s.skip.cur q = if q = .p then s.cur .p + 2 else s.cur q := by simp [State.skip]

@[simp] theorem State.curFlags_skip (s : State) : s.skip.curFlags = s.curFlags := by
  simp [State.skip]

/-! ### Page tables, page-control registers, external registers -/

@[simp] theorem State.pte_setPte (s : State) (t u : BitVec 2) (i j : BitVec 6) (e : Pte) :
    (s.setPte t i e).pte u j = if u = t ∧ j = i then e else s.pte u j := by
  unfold State.pte State.setPte
  by_cases h : u = t
  · subst h
    by_cases k : j = i
    · subst k; simp
    · have : i.toNat ≠ j.toNat := fun e => k (BitVec.eq_of_toNat_eq e).symm
      simp [k, this]
  · have : t.toNat ≠ u.toNat := fun e => h (BitVec.eq_of_toNat_eq e).symm
    simp [h, this]

@[simp] theorem State.pcrOf_setPcr (s : State) (l m : Level) (v : Word) :
    (s.setPcr l v).pcrOf m = if m = l then v else s.pcrOf m := by
  unfold State.pcrOf State.setPcr
  by_cases h : m = l
  · subst h; simp
  · have : l.toNat ≠ m.toNat := fun e => h (BitVec.eq_of_toNat_eq e).symm
    simp [h, this]

@[simp] theorem State.external_setExternal (s : State) (n m : BitVec 4) (v : Word) :
    (s.setExternal n v).external m = if m = n then v else s.external m := by
  unfold State.external State.setExternal
  by_cases h : m = n
  · subst h; simp
  · have : n.toNat ≠ m.toNat := fun e => h (BitVec.eq_of_toNat_eq e).symm
    simp [h, this]

end Sys2Proof.Machine
end

