-- ==== Sys2Proof/Laws/Ops.lean ====
section
/-! SUPPORT. What each shared operation can do, said once: the accesses of spec/20_memory.md, raising a
cause, the interrupt check, and how a meaning ends. -/

namespace Sys2Proof.Machine

/-! ### Conditions on how an access or a meaning ends -/

/-- Unless an access is refused, its value and state, or the state it is abandoned in, satisfy the
conditions. -/
def Access.Post {α : Type} (x : Access α) (P : α → State → Prop) (Q : State → Prop) : Prop :=
  match x with
  | .ok v t => P v t
  | .abandoned t => Q t
  | .refused _ => True

/-- A meaning does not fault, and a next state satisfies the condition. -/
def Ends (r : Result) (R : State → Prop) : Prop :=
  match r with
  | .next t => R t
  | .fault _ => False
  | .refused _ => True

@[simp] theorem Access.post_ok {α : Type} (v : α) (t : State) (P : α → State → Prop)
    (Q : State → Prop) : (Access.ok v t).Post P Q ↔ P v t := Iff.rfl

@[simp] theorem Access.post_abandoned {α : Type} (t : State) (P : α → State → Prop)
    (Q : State → Prop) : (Access.abandoned t : Access α).Post P Q ↔ Q t := Iff.rfl

@[simp] theorem ends_next (t : State) (R : State → Prop) : Ends (.next t) R ↔ R t := Iff.rfl

@[simp] theorem ends_refused (r : Refusal) (R : State → Prop) : Ends (.refused r) R ↔ True := Iff.rfl

theorem Ends.of_next {r : Result} {R : State → Prop} (h : Ends r R) {t : State}
    (e : r = .next t) : R t := by subst e; exact h

theorem Ends.mono {r : Result} {R S : State → Prop} (h : Ends r R) (w : ∀ t, R t → S t) :
    Ends r S := by
  cases r with
  | next t => exact w t h
  | fault f => exact h
  | refused f => trivial

theorem Access.Post.mono {α : Type} {x : Access α} {P P' : α → State → Prop} {Q Q' : State → Prop}
    (h : x.Post P Q) (hp : ∀ v t, P v t → P' v t) (hq : ∀ t, Q t → Q' t) : x.Post P' Q' := by
  cases x with
  | ok v t => exact hp v t h
  | abandoned t => exact hq t h
  | refused r => exact h

/-- The instruction after an access. -/
theorem Access.ends_andThen {α : Type} {x : Access α} {k : α → State → Result}
    {P : α → State → Prop} {Q : State → Prop} {R : State → Prop} (h : x.Post P Q)
    (hp : ∀ v t, P v t → Ends (k v t) R) (hq : ∀ t, Q t → R t) : Ends (x.andThen k) R := by
  cases x with
  | ok v t => exact hp v t h
  | abandoned t => exact hq t h
  | refused r => trivial

/-- One access after another. -/
theorem Access.post_bind {α β : Type} {x : Access α} {k : α → State → Access β}
    {P : α → State → Prop} {Q : State → Prop} {P' : β → State → Prop} {Q' : State → Prop}
    (h : x.Post P Q) (hp : ∀ v t, P v t → (k v t).Post P' Q') (hq : ∀ t, Q t → Q' t) :
    (x.bind k).Post P' Q' := by
  cases x with
  | ok v t => exact hp v t h
  | abandoned t => exact hq t h
  | refused r => exact h

/-! ### What accesses change -/

/-- A state that differs from another at most in the page tables. -/
def ReadStep (s t : State) : Prop := ∃ pt, t = { s with pt := pt }

/-- A state that differs from another at most in the page tables and in what a fault writes. -/
def FaultStep (s t : State) : Prop :=
  ∃ pt g i p, t = { s with pt := pt, pgs := g, iid := i, pid := p }

/-- A state that differs from another at most in the page tables and memory. -/
def WriteStep (s t : State) : Prop := ∃ pt m, t = { s with pt := pt, mem := m }

/-- A state that differs from another at most in the page tables, memory and what a fault writes. -/
def WriteFaultStep (s t : State) : Prop :=
  ∃ pt m g i p, t = { s with pt := pt, mem := m, pgs := g, iid := i, pid := p }

theorem ReadStep.refl (s : State) : ReadStep s s := ⟨s.pt, rfl⟩

theorem WriteStep.refl (s : State) : WriteStep s s := ⟨s.pt, s.mem, rfl⟩

theorem ReadStep.trans {s t u : State} (h : ReadStep s t) (k : ReadStep t u) : ReadStep s u := by
  obtain ⟨a, rfl⟩ := h; obtain ⟨b, rfl⟩ := k; exact ⟨b, rfl⟩

theorem ReadStep.fault {s t u : State} (h : ReadStep s t) (k : FaultStep t u) : FaultStep s u := by
  obtain ⟨a, rfl⟩ := h; obtain ⟨b, g, i, p, rfl⟩ := k; exact ⟨b, g, i, p, rfl⟩

theorem ReadStep.toWrite {s t : State} (h : ReadStep s t) : WriteStep s t := by
  obtain ⟨a, rfl⟩ := h; exact ⟨a, s.mem, rfl⟩

theorem FaultStep.toWrite {s t : State} (h : FaultStep s t) : WriteFaultStep s t := by
  obtain ⟨a, g, i, p, rfl⟩ := h; exact ⟨a, s.mem, g, i, p, rfl⟩

theorem WriteStep.trans {s t u : State} (h : WriteStep s t) (k : WriteStep t u) : WriteStep s u := by
  obtain ⟨a, b, rfl⟩ := h; obtain ⟨c, d, rfl⟩ := k; exact ⟨c, d, rfl⟩

theorem WriteStep.fault {s t u : State} (h : WriteStep s t) (k : WriteFaultStep t u) :
    WriteFaultStep s u := by
  obtain ⟨a, b, rfl⟩ := h; obtain ⟨c, d, g, i, p, rfl⟩ := k; exact ⟨c, d, g, i, p, rfl⟩

/-- A physical word is installed below `PHYS_WORDS` (R59). -/
theorem State.installed_eq_true {s : State} {pa : PhysAddr} (h : pa.toNat < s.physWords) :
    s.installed pa = true := decide_eq_true h

theorem State.installed_eq_false {s : State} {pa : PhysAddr} (h : s.physWords ≤ pa.toNat) :
    s.installed pa = false := decide_eq_false (by omega)

/-- With the default `PHYS_WORDS` every physical word is installed. -/
theorem State.installed_default {s : State} (h : s.physWords = 2 ^ 24) (pa : PhysAddr) :
    s.installed pa = true := State.installed_eq_true (by rw [h]; exact pa.isLt)

theorem State.physRead_eq {s : State} {pa : PhysAddr} (h : pa.toNat < s.physWords) :
    s.physRead pa = .ok (s.phys pa) s := if_pos (State.installed_eq_true h)

theorem State.physWrite_eq {s : State} {pa : PhysAddr} (h : pa.toNat < s.physWords) (v : Word) :
    s.physWrite pa v = .ok () (s.setPhys pa v) := if_pos (State.installed_eq_true h)

theorem State.physRead_refused {s : State} {pa : PhysAddr} (h : s.physWords ≤ pa.toNat) :
    s.physRead pa = .refused .beyondPhysWords := by
  unfold State.physRead; rw [State.installed_eq_false h]; rfl

theorem State.physWrite_refused {s : State} {pa : PhysAddr} (h : s.physWords ≤ pa.toNat) (v : Word) :
    s.physWrite pa v = .refused .beyondPhysWords := by
  unfold State.physWrite; rw [State.installed_eq_false h]; rfl

theorem State.physRead_post (s : State) (pa : PhysAddr) :
    (s.physRead pa).Post (fun v t => v = s.phys pa ∧ t = s) (fun _ => False) := by
  unfold State.physRead
  split
  · exact ⟨rfl, rfl⟩
  · trivial

theorem State.physWrite_post (s : State) (pa : PhysAddr) (v : Word) :
    (s.physWrite pa v).Post (fun _ t => t = s.setPhys pa v) (fun _ => False) := by
  unfold State.physWrite
  split
  · rfl
  · trivial

theorem State.mark_readStep (s : State) (kind : AccessKind) (e : Option (BitVec 2 × BitVec 6)) :
    ReadStep s (s.mark kind e) := by
  cases e with
  | none => exact ReadStep.refl s
  | some p => exact ⟨_, rfl⟩

/-- Raising an interrupt writes IID and PID only (60_exceptions.md R311). -/
theorem State.raiseInt_eq (s : State) (l : Level) (m : Word) :
    s.raiseInt l m = { s with iid := (s.raiseInt l m).iid, pid := (s.raiseInt l m).pid } := by
  unfold State.raiseInt
  split <;> rfl

/-- A fault writes PGS, IID and PID only (R56). -/
theorem State.mmuFault_faultStep (s : State) (kind : AccessKind) (c : MmuFault) (t : BitVec 2)
    (vpn : BitVec 6) : FaultStep s (s.mmuFault kind c t vpn) := by
  unfold State.mmuFault State.raiseCause
  rw [State.raiseInt_eq]
  exact ⟨_, _, _, _, rfl⟩

theorem State.readAt_post (s : State) (kind : AccessKind) (loc : Location) :
    (s.readAt kind loc).Post (fun _ t => ReadStep s t) (FaultStep s) := by
  cases loc with
  | shadow t i view => exact ReadStep.refl s
  | physical pa e =>
    simp only [State.readAt]
    split
    · exact s.mark_readStep kind e
    · trivial
  | fault c t vpn => exact s.mmuFault_faultStep kind c t vpn

theorem State.writeAt_post (s : State) (datum : Datum) (loc : Location) :
    (s.writeAt datum loc).Post (fun _ t => WriteStep s t) (FaultStep s) := by
  cases loc with
  | shadow t i view => exact ⟨_, s.mem, rfl⟩
  | physical pa e =>
    obtain ⟨pt, h⟩ := s.mark_readStep .write e
    simp only [State.writeAt, h]
    split
    · exact ⟨_, _, rfl⟩
    · trivial
  | fault c t vpn => exact s.mmuFault_faultStep .write c t vpn

/-- A translated read changes page tables only, or faults. -/
theorem State.memRead_post (s : State) (addr : Word) (apt : Bool) :
    (s.memRead addr apt).Post (fun _ t => ReadStep s t) (FaultStep s) := s.readAt_post _ _

/-- A fetch changes page tables only, or faults. -/
theorem State.memFetchFrom_post (s : State) (addr : Word) (apt : Bool) :
    (s.memFetchFrom addr apt).Post (fun _ t => ReadStep s t) (FaultStep s) := s.readAt_post _ _

theorem State.memFetch_post (s : State) (addr : Word) :
    (s.memFetch addr).Post (fun _ t => ReadStep s t) (FaultStep s) := s.memFetchFrom_post addr false

/-- A translated write changes page tables and memory only, or faults. -/
theorem State.memWrite_post (s : State) (addr : Word) (apt : Bool) (v : Word) :
    (s.memWrite addr apt v).Post (fun _ t => WriteStep s t) (FaultStep s) := s.writeAt_post _ _

/-- The byte-select write changes page tables and memory only, or faults. -/
theorem State.memWriteByte_post (s : State) (addr : Word) (apt sel : Bool) (v : Byte) :
    (s.memWriteByte addr apt sel v).Post (fun _ t => WriteStep s t) (FaultStep s) :=
  s.writeAt_post _ _

/-- Computing an effective address changes page tables only, or faults
(40_memory_reference.md R102). -/
theorem State.effectiveAddress_post (s : State) (mode : Mode) (disp : BitVec 8) :
    (s.effectiveAddress mode disp).Post (fun _ t => ReadStep s t) (FaultStep s) := by
  cases mode <;> simp only [State.effectiveAddress, Access.post_ok]
  case pRel | bRel | xIdx | bxIdx => exact ReadStep.refl s
  all_goals exact Access.post_bind (s.memRead_post _ _) (fun _ _ h => h) (fun _ h => h)

/-- The operand of a memory-reference instruction is read with a change of page tables only. -/
theorem State.readOperand_post (s : State) (mode : Mode) (disp : BitVec 8) :
    (s.readOperand mode disp).Post (fun _ t => ReadStep s t) (FaultStep s) :=
  Access.post_bind (s.effectiveAddress_post mode disp)
    (fun _ t h => (t.memRead_post _ _).mono (fun _ _ k => h.trans k) (fun _ k => h.fault k))
    (fun _ h => h)

/-- A word is stored at the effective address, or a fault leaves memory alone. -/
theorem State.writeOperand_post (s : State) (mode : Mode) (disp : BitVec 8) (v : Word) :
    (s.writeOperand mode disp v).Post (fun _ t => WriteStep s t) (FaultStep s) :=
  Access.post_bind (s.effectiveAddress_post mode disp)
    (fun _ t h => (t.memWrite_post _ _ _).mono (fun _ _ k => h.toWrite.trans k) (fun _ k => h.fault k))
    (fun _ h => h)

theorem State.memReadList_post (apt : Bool) (addrs : List Word) :
    ∀ s : State, (s.memReadList apt addrs).Post (fun vs t => ReadStep s t ∧ vs.length = addrs.length)
      (FaultStep s) := by
  induction addrs with
  | nil => intro s; exact ⟨ReadStep.refl s, rfl⟩
  | cons a rest ih =>
    intro s
    refine Access.post_bind (s.memRead_post a apt) (fun v t h => ?_) (fun _ h => h)
    refine Access.post_bind (ih t) (fun vs u k => ?_) (fun _ k => h.fault k)
    exact ⟨h.trans k.1, by simp [k.2]⟩

theorem State.memWriteList_post (apt : Bool) (writes : List (Word × Word)) :
    ∀ s : State, (s.memWriteList apt writes).Post (fun _ t => WriteStep s t) (WriteFaultStep s) := by
  induction writes with
  | nil => intro s; exact WriteStep.refl s
  | cons w rest ih =>
    intro s
    obtain ⟨a, v⟩ := w
    refine Access.post_bind (s.memWrite_post a apt v) (fun _ t h => ?_) (fun _ h => h.toWrite)
    exact (ih t).mono (fun _ _ k => h.trans k) (fun _ k => h.fault k)

/-! ### The registers are untouched -/

theorem ReadStep.banks {s t : State} (h : ReadStep s t) : t.banks = s.banks := by
  obtain ⟨_, rfl⟩ := h; rfl

theorem WriteStep.banks {s t : State} (h : WriteStep s t) : t.banks = s.banks := by
  obtain ⟨_, _, rfl⟩ := h; rfl

theorem WriteFaultStep.banks {s t : State} (h : WriteFaultStep s t) : t.banks = s.banks := by
  obtain ⟨_, _, _, _, _, rfl⟩ := h; rfl

theorem ReadStep.cur {s t : State} (h : ReadStep s t) (r : Reg) : t.cur r = s.cur r := by
  obtain ⟨_, rfl⟩ := h; rfl

theorem WriteStep.cur {s t : State} (h : WriteStep s t) (r : Reg) : t.cur r = s.cur r := by
  obtain ⟨_, _, rfl⟩ := h; rfl

theorem ReadStep.curFlags {s t : State} (h : ReadStep s t) : t.curFlags = s.curFlags := by
  obtain ⟨_, rfl⟩ := h; rfl

/-! ### The privileged check (60_exceptions.md R326) -/

theorem privileged_eq_of_mayRun {s : State} (h : s.mayRunPrivileged) (k : State → Result) :
    privileged s k = k s := by
  have e : (s.poni && decide (s.ring < 2)) = false := by
    rcases h with h | h
    · rw [h, Bool.false_and]
    · rw [decide_eq_false (by bv_omega : ¬ s.ring < 2), Bool.and_false]
  unfold privileged
  rw [e]; rfl

theorem privileged_eq_of_unprivileged {s : State} (h : s.unprivileged) (k : State → Result) :
    privileged s k = .next (s.raiseCause .privilegedInstruction) := by
  unfold privileged
  rw [h.1, decide_eq_true h.2]; rfl

/-- A privileged instruction runs, or raises the cause. -/
theorem ends_privileged {s : State} {k : State → Result} {R : State → Prop}
    (run : s.mayRunPrivileged → Ends (k s) R) (trap : R (s.raiseCause .privilegedInstruction)) :
    Ends (privileged s k) R := by
  by_cases h : s.unprivileged
  · rw [privileged_eq_of_unprivileged h]; exact trap
  · have m : s.mayRunPrivileged := by
      unfold State.unprivileged at h
      unfold State.mayRunPrivileged
      by_cases p : s.poni = false
      · exact Or.inl p
      · refine Or.inr ?_
        have q : ¬ s.ring < 2 := fun q => h ⟨by simpa using p, q⟩
        bv_omega
    rw [privileged_eq_of_mayRun m]; exact run m

end Sys2Proof.Machine
end

