-- ==== Sys2Proof/Laws/Accesses.lean ====
section
/-! SUPPORT. Accesses seen from an instruction: what a hypothesis about an access gives, when two states
locate an address alike, and the views of a page-table entry in the shadow window. -/

namespace Sys2Proof.Machine

/-! ### The highest set bit (60_exceptions.md R312) -/

theorem highestBitBelow_spec (v : Word) (n : Nat) :
    highestBitBelow v n ≤ n ∧ (∀ k, highestBitBelow v n < k → k ≤ n → v.getLsbD k = false) ∧
    (v.getLsbD (highestBitBelow v n) = true ∨ highestBitBelow v n = 0) := by
  induction n with
  | zero => simp [highestBitBelow]; intro k h1 h2; omega
  | succ n ih =>
    simp only [highestBitBelow]
    split
    · rename_i h; exact ⟨Nat.le_refl _, fun k a b => by omega, Or.inl h⟩
    · rename_i h
      refine ⟨by omega, ?_, ih.2.2⟩
      intro k a b
      by_cases e : k = n + 1
      · subst e; simpa using h
      · exact ih.2.1 k a (by omega)

theorem highestBit_toNat (v : Word) : (highestBit v).toNat = highestBitBelow v 15 := by
  have := (highestBitBelow_spec v 15).1
  simp [highestBit]; omega

theorem highestBit_spec (v : Word) (h : v ≠ 0) : v.getLsbD (highestBit v).toNat = true ∧
    ∀ k, (highestBit v).toNat < k → v.getLsbD k = false := by
  rw [highestBit_toNat]
  have s := highestBitBelow_spec v 15
  have up : ∀ k, highestBitBelow v 15 < k → v.getLsbD k = false := by
    intro k a
    by_cases b : k ≤ 15
    · exact s.2.1 k a b
    · exact BitVec.getLsbD_of_ge _ _ (by omega)
  refine ⟨?_, up⟩
  rcases s.2.2 with a | a
  · exact a
  · by_contra c
    apply h
    apply BitVec.eq_of_getLsbD_eq
    intro i hi
    by_cases z : i = 0
    · subst z; rw [a] at c; simpa using c
    · simpa using up i (by omega)

theorem highestBit_zero : highestBit 0 = 0 := by decide

/-! ### What a known access gives -/

theorem FaultStep.cur {s t : State} (h : FaultStep s t) (r : Reg) : t.cur r = s.cur r := by
  obtain ⟨_, _, _, _, rfl⟩ := h; rfl

theorem FaultStep.mem {s t : State} (h : FaultStep s t) : t.mem = s.mem := by
  obtain ⟨_, _, _, _, rfl⟩ := h; rfl

theorem FaultStep.banks {s t : State} (h : FaultStep s t) : t.banks = s.banks := by
  obtain ⟨_, _, _, _, rfl⟩ := h; rfl

theorem ReadStep.mem {s t : State} (h : ReadStep s t) : t.mem = s.mem := by
  obtain ⟨_, rfl⟩ := h; rfl

theorem State.effectiveAddress_ok {s t : State} {m : Mode} {d : BitVec 8} {x : Word × Bool}
    (h : s.effectiveAddress m d = .ok x t) : ReadStep s t := by
  have k := s.effectiveAddress_post m d
  rw [h] at k; exact k

theorem State.effectiveAddress_abandoned {s t : State} {m : Mode} {d : BitVec 8}
    (h : s.effectiveAddress m d = .abandoned t) : FaultStep s t := by
  have k := s.effectiveAddress_post m d
  rw [h] at k; exact k

theorem State.memRead_ok {s t : State} {a : Word} {b : Bool} {x : Word}
    (h : s.memRead a b = .ok x t) : ReadStep s t := by
  have k := s.memRead_post a b
  rw [h] at k; exact k

theorem State.memRead_abandoned {s t : State} {a : Word} {b : Bool}
    (h : s.memRead a b = .abandoned t) : FaultStep s t := by
  have k := s.memRead_post a b
  rw [h] at k; exact k

theorem State.memFetch_ok {s t : State} {a x : Word}
    (h : s.memFetch a = .ok x t) : ReadStep s t := by
  have k := s.memFetch_post a
  rw [h] at k; exact k

theorem State.memFetch_abandoned {s t : State} {a : Word}
    (h : s.memFetch a = .abandoned t) : FaultStep s t := by
  have k := s.memFetch_post a
  rw [h] at k; exact k

theorem State.memWrite_ok {s t : State} {a v : Word} {b : Bool} {x : Unit}
    (h : s.memWrite a b v = .ok x t) : WriteStep s t := by
  have k := s.memWrite_post a b v
  rw [h] at k; exact k

theorem State.memWrite_abandoned {s t : State} {a v : Word} {b : Bool}
    (h : s.memWrite a b v = .abandoned t) : FaultStep s t := by
  have k := s.memWrite_post a b v
  rw [h] at k; exact k

theorem State.memWriteByte_ok {s t : State} {a : Word} {b c : Bool} {v : Byte} {x : Unit}
    (h : s.memWriteByte a b c v = .ok x t) : WriteStep s t := by
  have k := s.memWriteByte_post a b c v
  rw [h] at k; exact k

theorem State.memWriteByte_abandoned {s t : State} {a : Word} {b c : Bool} {v : Byte}
    (h : s.memWriteByte a b c v = .abandoned t) : FaultStep s t := by
  have k := s.memWriteByte_post a b c v
  rw [h] at k; exact k

/-! ### States that locate alike -/

theorem State.isShadow_congr {q s : State} (a : Word) (h3 : q.sexi = s.sexi) (h4 : q.poni = s.poni) (h5 : q.pcr = s.pcr) (h6 : q.pil = s.pil) :
   q.isShadow a = s.isShadow a := by
  cases q; cases s; cases h3; cases h4; cases h5; cases h6; rfl

theorem State.shadowLocation_congr {q s : State} (a : Word) (h3 : q.sexi = s.sexi) :
   q.shadowLocation a = s.shadowLocation a := by
  cases q; cases s; cases h3; rfl

theorem State.translate_congr {q s : State} (k) (a : Word) (apt) (h1 : q.pt = s.pt) (h3 : q.sexi = s.sexi) (h5 : q.pcr = s.pcr) (h6 : q.pil = s.pil) (h7 : q.curFlags = s.curFlags) :
   q.translate k a apt = s.translate k a apt := by
  have p : q.ptm = s.ptm := by simp only [State.ptm, h7]
  have t : q.selectTable apt = s.selectTable apt := by
    simp only [State.selectTable, p]
    cases q; cases s; cases h5; cases h6; rfl
  have e : ∀ t i, q.pte t i = s.pte t i := by 
    intro t i;  cases q; cases s; cases h1; rfl
  have r : q.ring = s.ring := by cases q; cases s; cases h5; cases h6; rfl
  have n : ∀ e, q.pageNumber e = s.pageNumber e := by intro e; cases q; cases s; cases h3; rfl
  simp only [State.translate, t, e, r, n]

/-- A register write does not change a read. -/
theorem State.memRead_setCur (s : State) (r : Reg) (v a : Word) (apt : Bool) :
    (s.setCur r v).memRead a apt = match s.memRead a apt with
      | .ok x t => .ok x (t.setCur r v)
      | .abandoned t => .abandoned (t.setCur r v)
      | .refused x => .refused x := by
  have f : (s.setCur r v).curFlags = s.curFlags := by simp
  have L : (s.setCur r v).locate .read a apt = s.locate .read a apt := by
    have p : (s.setCur r v).ptm = s.ptm := by simp only [State.ptm, f]
    have t : ∀ b, (s.setCur r v).selectTable b = s.selectTable b := fun b => by simp only [State.selectTable, p]; rfl
    have tr : ∀ b, (s.setCur r v).translate .read a b = s.translate .read a b := fun b => by
      simp only [State.translate, t]; rfl
    simp only [State.locate, tr]; rfl
  simp only [State.memRead, L]
  cases s.locate .read a apt with
  | shadow t i w => rfl
  | physical pa e =>
    have i : (s.setCur r v).installed pa = s.installed pa := rfl
    simp only [State.readAt, i]
    cases s.installed pa <;> cases e <;> rfl
  | fault c t w =>
    simp only [State.readAt, State.mmuFault, State.raiseCause, State.raiseInt, if_true]
    rfl

/-- Writes of two registers commute. -/
theorem State.setCur_comm (s : State) (r q : Reg) (v w : Word) (h : r ≠ q) :
   (s.setCur r v).setCur q w = (s.setCur q w).setCur r v := by
  simp only [State.setCur, State.setReg, State.setBank, State.bank]
  congr 1
  apply Vector.ext
  intro i hi
  simp only [Vector.getElem_set]
  split <;> simp
  cases r <;> cases q <;> first | rfl | exact absurd rfl h

/-! ### Page-table entries -/

theorem permits_eq_zero (e : Pte) : e.extractLsb' 29 3 = 0 ↔ (e.getLsbD 31 = false ∧ e.getLsbD 30 = false ∧ e.getLsbD 29 = false) := by
  constructor
  · intro h
    have g : ∀ i, (e.extractLsb' 29 3).getLsbD i = false := by intro i; rw [h]; simp
    have g0 := g 0; have g1 := g 1; have g2 := g 2
    simp only [BitVec.getLsbD_extractLsb'] at g0 g1 g2
    simp at g0 g1 g2
    simp [g0, g1, g2]
  · rintro ⟨a, b, c⟩
    apply BitVec.eq_of_getLsbD_eq
    intro i hi
    rw [BitVec.getLsbD_extractLsb']
    have : i = 0 ∨ i = 1 ∨ i = 2 := by omega
    rcases this with rfl | rfl | rfl
    · simpa using c
    · simpa using b
    · simpa using a

theorem State.selectTable_eq (s : State) (apt : Bool) : s.selectTable apt = 
      if apt = true ∧ s.flag .ptm = true then (s.pcrOf s.pil).extractLsb' 7 2
      else (s.pcrOf s.pil).extractLsb' 9 2 := by
  cases apt <;> cases h : s.flag .ptm <;> simp [State.selectTable, State.ptm, State.flag, flagOf, Flag.bit] at h ⊢ <;> simp [h]

theorem shadowWrite_narrow (v : Word) (e : Pte) : 
   ((shadowWrite e v .narrow).extractLsb' 27 5 = v.extractLsb' 11 5 ∧ (shadowWrite e v .narrow).getLsbD 26 = false) ∧
        (shadowWrite e v .narrow).extractLsb' 24 2 = v.extractLsb' 9 2 ∧ (shadowWrite e v .narrow).extractLsb' 14 10 = 0 ∧
        (shadowWrite e v .narrow).extractLsb' 9 5 = 0 ∧ (shadowWrite e v .narrow).extractLsb' 0 9 = v.extractLsb' 0 9 := by
  simp only [shadowWrite]
  refine ⟨⟨?_, ?_⟩, ?_, ?_, ?_, ?_⟩
  case refine_2 => (simp only [BitVec.getLsbD_append, BitVec.getLsbD_extractLsb']; simp)
  all_goals
    apply BitVec.eq_of_getLsbD_eq
    intro i hi
    interval_cases i <;> (simp only [BitVec.getLsbD_append, BitVec.getLsbD_extractLsb']; simp)

theorem shadowRead_write_narrow (v : Word) (e : Pte) : shadowRead (shadowWrite e v .narrow) .narrow = v := by
  simp only [shadowRead, shadowWrite]
  apply BitVec.eq_of_getLsbD_eq
  intro i hi
  interval_cases i <;> (simp only [BitVec.getLsbD_append, BitVec.getLsbD_extractLsb']; simp)

theorem shadowRead_write_high (v : Word) (e : Pte) : shadowRead (shadowWrite e v .high) .high = v := by
  simp only [shadowRead, shadowWrite]
  apply BitVec.eq_of_getLsbD_eq; intro i hi
  rw [BitVec.getLsbD_extractLsb', BitVec.getLsbD_append]; simp [hi]

theorem shadowRead_write_low (v : Word) (e : Pte) : shadowRead (shadowWrite e v .low) .low = v := by
  simp only [shadowRead, shadowWrite]
  apply BitVec.eq_of_getLsbD_eq; intro i hi
  rw [BitVec.getLsbD_extractLsb', BitVec.getLsbD_append]; simp [hi]

theorem shadowRead_write (v : Word) (e : Pte) (w : ShadowView) : shadowRead (shadowWrite e v w) w = v := by
  cases w; exact shadowRead_write_narrow v e; exact shadowRead_write_high v e; exact shadowRead_write_low v e

theorem State.shadowLocation_cases (s : State) (a : Word) : ∃ t i w, s.shadowLocation a = .shadow t i w ∧ (s.sexi = false → w = .narrow) ∧ (s.sexi = true → w ≠ .narrow) := by
  unfold State.shadowLocation
  cases h : s.sexi
  · exact ⟨_, _, _, rfl, fun _ => rfl, by simp⟩
  · refine ⟨_, _, _, rfl, by simp, ?_⟩
    simp; split <;> simp

theorem setUsed_eq (e : Pte) : setBitTo e 27 true = e ||| 0x08000000 := rfl

theorem setUsedWritten_eq (e : Pte) : setBitTo (setBitTo e 27 true) 28 true = e ||| 0x18000000 := by
  simp only [setBitTo, if_true, BitVec.or_assoc]; rfl

end Sys2Proof.Machine
end

