-- ==== Sys2Proof/Laws/ExecuteRegister.lean ====
section
/-! SUPPORT. EXR runs an instruction as the Dispatcher's table does (spec/41_control_transfer.md R149). -/

namespace Sys2Proof.Machine

/-- On every instruction but EXR, the list that EXR uses is the Dispatcher's table. -/
theorem executeInRegister_eq_exec (i : Instr) (s : State) (h : ∀ sr, i ≠ .exr sr) :
    executeInRegister i s = exec i s := by
  cases i
  case exr sr => exact absurd rfl (h sr)
  all_goals rfl

end Sys2Proof.Machine
end

