-- ==== Sys2Proof/Laws/Float.lean ====
section
/-! SUPPORT. What the two scaling loops of the float engine compute (45_float.md R225, R227). -/

namespace Sys2Proof.Machine

/-- The top bit of a value below `2^(w+1)` is 1 exactly when the value is at least `2^w`. -/
theorem getLsbD_top {w : Nat} (m : BitVec (w + 1)) : m.getLsbD w = true ↔ 2 ^ w ≤ m.toNat := by
  rw [BitVec.getLsbD, Nat.testBit_eq_decide_div_mod_eq, decide_eq_true_eq]
  have h := m.isLt
  have p : 0 < 2 ^ w := Nat.two_pow_pos w
  constructor
  · intro a
    by_contra c
    rw [Nat.div_eq_of_lt (by omega)] at a
    omega
  · intro a
    have : m.toNat / 2 ^ w = 1 := Nat.div_eq_of_lt_le (by omega) (by rw [pow_succ] at h; omega)
    omega

/-- The loop shifts by the one `k` that brings the value into the upper half of the range, and takes `k` off
the exponent. -/
theorem alignTop_eq {w : Nat} (k fuel : Nat) (e : Int) (m : BitVec (w + 1)) (hk : k ≤ fuel)
    (lo : 2 ^ w ≤ m.toNat * 2 ^ k) (hi : m.toNat * 2 ^ k < 2 ^ (w + 1)) :
    alignTop fuel e m = (e - k, BitVec.ofNat (w + 1) (m.toNat * 2 ^ k)) := by
  induction k generalizing fuel e m with
  | zero =>
    have top := (getLsbD_top m).2 (by simpa using lo)
    cases fuel <;> simp [alignTop, top]
  | succ k ih =>
    obtain ⟨fuel, rfl⟩ : ∃ f, fuel = f + 1 := ⟨fuel - 1, by omega⟩
    have p : 0 < 2 ^ k := Nat.two_pow_pos k
    have small : m.toNat * 2 < 2 ^ (w + 1) := by
      rw [pow_succ 2 k] at hi
      nlinarith
    have top : ¬ m.getLsbD w = true := by
      rw [getLsbD_top]
      rw [pow_succ] at small
      omega
    have shifted : (m <<< 1).toNat = m.toNat * 2 := by
      rw [BitVec.toNat_shiftLeft, Nat.shiftLeft_eq, pow_one, Nat.mod_eq_of_lt small]
    have same : m.toNat * 2 * 2 ^ k = m.toNat * 2 ^ (k + 1) := by rw [pow_succ]; ring
    simp only [alignTop, Nat.add_sub_cancel, top]
    rw [if_neg (by simp), ih fuel (e - 1) (m <<< 1) (by omega) (by rw [shifted, same]; exact lo)
      (by rw [shifted, same]; exact hi), shifted, same]
    congr 1
    push_cast
    ring

/-- The count goes on to the one `k` that brings the quotient `n * 2^k / d` into `2^31 .. 2^32`. -/
theorem quotientScale_eq (fuel k j n d : Nat) (hj : j ≤ k) (hk : k < j + fuel)
    (lo : 2 ^ 31 * d ≤ n * 2 ^ k) (hi : n * 2 ^ k < 2 ^ 32 * d) : quotientScale fuel j n d = k := by
  induction fuel generalizing j with
  | zero => omega
  | succ fuel ih =>
    rw [quotientScale]
    by_cases e : j = k
    · subst e; rw [if_pos lo]
    · rw [if_neg, ih (j + 1) (by omega) (by omega)]
      have : n * 2 ^ (j + 1) ≤ n * 2 ^ k := Nat.mul_le_mul_left n (Nat.pow_le_pow_right (by omega) (by omega))
      rw [pow_succ, ← Nat.mul_assoc] at this
      omega

end Sys2Proof.Machine
end

