-- ==== Sys2Proof/Laws/Frames.lean ====
section
/-! SUPPORT. Frames that compose: which parts of the state, and which registers and flags, an operation
leaves as they are. -/

namespace Sys2Proof.Machine

/-! ### The parts beside the register file -/

/-- Two states agree on every part outside a list. -/
def OnlyParts (parts : List Part) (s t : State) : Prop := ∀ part, part ∉ parts → part.same s t

theorem OnlyParts.refl (s : State) : OnlyParts [] s s := fun part _ => by cases part <;> rfl

theorem Part.same_trans {part : Part} {s t u : State} (h : part.same s t) (k : part.same t u) :
    part.same s u := by
  cases part <;> exact Eq.trans k h

theorem OnlyParts.trans {a b : List Part} {s t u : State} (h : OnlyParts a s t)
    (k : OnlyParts b t u) : OnlyParts (a ++ b) s u := fun part n =>
  Part.same_trans (h part fun m => n (List.mem_append_left _ m))
    (k part fun m => n (List.mem_append_right _ m))

theorem OnlyParts.mono {a b : List Part} {s t : State} (h : OnlyParts a s t) (w : a ⊆ b) :
    OnlyParts b s t := fun part n => h part fun m => n (w m)

/-- Only the register file differs. -/
theorem OnlyParts.of_banks {s : State} (b : Vector Bank 16) :
    OnlyParts [] s { s with banks := b } := fun part _ => by cases part <;> rfl

/-- After a change of the parts of a list, a change of the register file only. -/
theorem OnlyParts.then_banks {parts : List Part} {s t : State} (h : OnlyParts parts s t)
    (b : Vector Bank 16) : OnlyParts parts s { t with banks := b } := fun part n =>
  Part.same_trans (h part n) (OnlyParts.of_banks b part List.not_mem_nil)

theorem ReadStep.onlyParts {s t : State} (h : ReadStep s t) : OnlyParts readParts s t := by
  obtain ⟨_, rfl⟩ := h
  intro part n
  cases part <;> first | rfl | exact absurd (by decide) n

theorem FaultStep.onlyParts {s t : State} (h : FaultStep s t) : OnlyParts readParts s t := by
  obtain ⟨_, _, _, _, rfl⟩ := h
  intro part n
  cases part <;> first | rfl | exact absurd (by decide) n

theorem WriteStep.onlyParts {s t : State} (h : WriteStep s t) :
    OnlyParts (.memory :: readParts) s t := by
  obtain ⟨_, _, rfl⟩ := h
  intro part n
  cases part <;> first | rfl | exact absurd (by decide) n

theorem WriteFaultStep.onlyParts {s t : State} (h : WriteFaultStep s t) :
    OnlyParts (.memory :: readParts) s t := by
  obtain ⟨_, _, _, _, _, rfl⟩ := h
  intro part n
  cases part <;> first | rfl | exact absurd (by decide) n

/-- Raising a cause changes IID and PID only (60_exceptions.md R311). -/
theorem State.raiseInt_onlyParts (s : State) (l : Level) (m : Word) :
    OnlyParts causeParts s (s.raiseInt l m) := by
  rw [State.raiseInt_eq]
  intro part n
  cases part <;> first | rfl | exact absurd (by decide) n

/-! ### Registers and flags -/

/-- Outside the given registers, P, the given flags and the given other levels, the register files of
two states agree. -/
structure KeepsRegisters (regs : List Reg) (flags : List Flag) (levels : List Level)
    (s t : State) : Prop where
  reg : ∀ r, r ≠ .p → r ∉ regs → t.reg s.pil r = s.reg s.pil r
  flag : ∀ g, g ∉ flags → flagOf (t.flags s.pil) g = flagOf (s.flags s.pil) g
  bank : ∀ l, l ≠ s.pil → l ∉ levels → t.bank l = s.bank l
  scratch : ∀ l, (t.bank l).scratch = (s.bank l).scratch

variable {D E : List Reg} {F G : List Flag} {L M : List Level} {s t u : State}

/-- Two states with one register file. -/
theorem KeepsRegisters.of_banks (h : t.banks = s.banks) : KeepsRegisters D F L s t := by
  have k : ∀ l, t.bank l = s.bank l := fun l => by unfold State.bank; simp only [h]
  constructor
  · intro r _ _; unfold State.reg; rw [k]
  · intro g _; unfold State.flags; rw [k]
  · intro l _ _; exact k l
  · intro l; rw [k]

theorem KeepsRegisters.trans (h : KeepsRegisters D F L s t) (e : t.pil = s.pil)
    (k : KeepsRegisters D F L t u) : KeepsRegisters D F L s u := by
  obtain ⟨a, b, c, d⟩ := h
  obtain ⟨a', b', c', d'⟩ := k
  rw [e] at a' b' c'
  exact ⟨fun r p n => (a' r p n).trans (a r p n), fun g n => (b' g n).trans (b g n),
    fun l p n => (c' l p n).trans (c l p n), fun l => (d' l).trans (d l)⟩

/-- A register of the current level written. -/
theorem State.setCur_keeps (s : State) (r : Reg) (v : Word) (h : r = .p ∨ r ∈ D) :
    KeepsRegisters D F L s (s.setCur r v) := by
  constructor
  · intro q p n
    have e : q ≠ r := by
      rcases h with rfl | h
      · exact p
      · rintro rfl; exact n h
    simp [State.setCur, State.reg_setReg, e]
  · intro g _; simp [State.setCur]
  · intro l p _; simp [State.setCur, p]
  · intro l; exact State.scratch_setReg _ _ _ _ _

theorem State.jump_keeps (s : State) (v : Word) : KeepsRegisters D F L s (s.jump v) :=
  s.setCur_keeps .p v (Or.inl rfl)

/-- A flag of the current level written. -/
theorem State.setFlag_keeps (s : State) (g : Flag) (v : Bool) (h : g ∈ F) :
    KeepsRegisters D F L s (s.setFlag g v) := by
  constructor
  · intro q _ _; simp [State.setFlag, State.setCurFlags]
  · intro f n
    have e : f ≠ g := by rintro rfl; exact n h
    simp [State.setFlag, State.setCurFlags, State.curFlags, flagOf_withFlag, e]
  · intro l p _; simp [State.setFlag, State.setCurFlags, p]
  · intro l; exact State.scratch_setFlags _ _ _ _

/-- The flags of the current level written so that the flags outside the list stay. -/
theorem State.setCurFlags_keeps (s : State) (f : BitVec 8)
    (h : ∀ g, g ∉ F → flagOf f g = flagOf s.curFlags g) :
    KeepsRegisters D F L s (s.setCurFlags f) := by
  constructor
  · intro q _ _; simp [State.setCurFlags]
  · intro g n
    have := h g n
    simpa [State.setCurFlags, State.curFlags] using this
  · intro l p _; simp [State.setCurFlags, p]
  · intro l; exact State.scratch_setFlags _ _ _ _

/-- A register of another level written. -/
theorem State.setReg_keeps (s : State) (l : Level) (r : Reg) (v : Word) (h : l ∈ L)
    (c : l = s.pil → r = .p ∨ r ∈ D) : KeepsRegisters D F L s (s.setReg l r v) := by
  constructor
  · intro q p n
    by_cases e : s.pil = l
    · have : q ≠ r := by
        rcases c e.symm with rfl | h
        · exact p
        · rintro rfl; exact n h
      simp [State.reg_setReg, this]
    · simp [State.reg_setReg, e]
  · intro g _; simp
  · intro m p n
    have : m ≠ l := by rintro rfl; exact n h
    simp [this]
  · intro m; exact State.scratch_setReg _ _ _ _ _

/-- The flags of a level written. -/
theorem State.setFlags_keeps (s : State) (l : Level) (f : BitVec 8) (h : l ∈ L)
    (c : l = s.pil → ∀ g, g ∉ F → flagOf f g = flagOf s.curFlags g) :
    KeepsRegisters D F L s (s.setFlags l f) := by
  constructor
  · intro q _ _; simp
  · intro g n
    by_cases e : s.pil = l
    · have := c e.symm g n
      simpa [e, State.curFlags] using this
    · simp [e]
  · intro m p n
    have : m ≠ l := by rintro rfl; exact n h
    simp [this]
  · intro m; exact State.scratch_setFlags _ _ _ _

/-! ### Both together, composed along an instruction -/

/-- What an instruction may change: registers and flags of the current level, banks of other levels, and
parts of the rest of the state. The current level stays. -/
structure Framed (regs : List Reg) (flags : List Flag) (levels : List Level) (parts : List Part)
    (s t : State) : Prop where
  registers : KeepsRegisters regs flags levels s t
  onlyParts : OnlyParts parts s t
  pil : t.pil = s.pil

namespace Framed

variable {P : List Part}

theorem refl : Framed D F L P s s :=
  ⟨.of_banks rfl, (OnlyParts.refl s).mono (List.nil_subset _), rfl⟩

theorem trans (h : Framed D F L P s t) (k : Framed D F L P t u) : Framed D F L P s u :=
  ⟨h.registers.trans h.pil k.registers,
    fun part n => Part.same_trans (h.onlyParts part n) (k.onlyParts part n), k.pil.trans h.pil⟩

theorem setCur (h : Framed D F L P s t) (r : Reg) (v : Word) (w : r = .p ∨ r ∈ D) :
    Framed D F L P s (t.setCur r v) :=
  ⟨h.registers.trans h.pil (t.setCur_keeps r v w), h.onlyParts.then_banks _, h.pil⟩

theorem jump (h : Framed D F L P s t) (v : Word) : Framed D F L P s (t.jump v) :=
  h.setCur .p v (Or.inl rfl)

theorem next (h : Framed D F L P s t) : Framed D F L P s t.next := h.jump _

theorem skipIf (h : Framed D F L P s t) (c : Bool) : Framed D F L P s (t.skipIf c) := by
  cases c
  · exact h.next
  · exact h.jump _

theorem jumpIf (h : Framed D F L P s t) (c : Bool) (d : BitVec 8) :
    Framed D F L P s (t.jumpIf c d) := by
  cases c
  · exact h.next
  · exact h.jump _

theorem setFlag (h : Framed D F L P s t) (g : Flag) (v : Bool) (w : g ∈ F) :
    Framed D F L P s (t.setFlag g v) :=
  ⟨h.registers.trans h.pil (t.setFlag_keeps g v w), h.onlyParts.then_banks _, h.pil⟩

theorem setCurFlags (h : Framed D F L P s t) (f : BitVec 8)
    (w : ∀ g, g ∉ F → flagOf f g = flagOf t.curFlags g) : Framed D F L P s (t.setCurFlags f) :=
  ⟨h.registers.trans h.pil (t.setCurFlags_keeps f w), h.onlyParts.then_banks _, h.pil⟩

theorem setReg (h : Framed D F L P s t) (l : Level) (r : Reg) (v : Word) (w : l ∈ L)
    (c : l = s.pil → r = .p ∨ r ∈ D) : Framed D F L P s (t.setReg l r v) :=
  ⟨h.registers.trans h.pil (t.setReg_keeps l r v w (by rw [h.pil]; exact c)),
    h.onlyParts.then_banks _, h.pil⟩

theorem setFlags (h : Framed D F L P s t) (l : Level) (f : BitVec 8) (w : l ∈ L)
    (c : l = s.pil → ∀ g, g ∈ F) : Framed D F L P s (t.setFlags l f) :=
  ⟨h.registers.trans h.pil
      (t.setFlags_keeps l f w (by rw [h.pil]; intro e g n; exact absurd (c e g) n)),
    h.onlyParts.then_banks _, h.pil⟩

/-- The adder writes C, Q and O (42_register_ops.md R150). -/
theorem addFlags (h : Framed D F L P s t) (a b : Word) (c : Bool) (w : [Flag.c, .q, .o] ⊆ F) :
    Framed D F L P s (t.addFlags a b c) := by
  refine h.setCurFlags _ fun g n => ?_
  have m : g ≠ .c ∧ g ≠ .q ∧ g ≠ .o :=
    ⟨by rintro rfl; exact n (w (by decide)), by rintro rfl; exact n (w (by decide)),
      by rintro rfl; exact n (w (by decide))⟩
  simp [Sys2Proof.Machine.addFlags, Sys2Proof.Machine.overflowFlags, flagOf_withFlag, m]

theorem of_read (h : ReadStep s t) (w : readParts ⊆ P) : Framed D F L P s t :=
  ⟨.of_banks h.banks, h.onlyParts.mono w, by obtain ⟨_, rfl⟩ := h; rfl⟩

theorem of_fault (h : FaultStep s t) (w : readParts ⊆ P) : Framed D F L P s t :=
  ⟨.of_banks h.banks, h.onlyParts.mono w, by obtain ⟨_, _, _, _, rfl⟩ := h; rfl⟩

theorem of_write (h : WriteStep s t) (w : (.memory :: readParts) ⊆ P) : Framed D F L P s t :=
  ⟨.of_banks h.banks, h.onlyParts.mono w, by obtain ⟨_, _, rfl⟩ := h; rfl⟩

theorem of_writeFault (h : WriteFaultStep s t) (w : (.memory :: readParts) ⊆ P) :
    Framed D F L P s t :=
  ⟨.of_banks h.banks, h.onlyParts.mono w, by obtain ⟨_, _, _, _, _, rfl⟩ := h; rfl⟩

theorem of_cause (c : Cause) (w : causeParts ⊆ P) : Framed D F L P s (s.raiseCause c) :=
  ⟨by unfold State.raiseCause; rw [State.raiseInt_eq]; exact .of_banks rfl,
    (s.raiseInt_onlyParts 14 _).mono w, by unfold State.raiseCause; rw [State.raiseInt_eq]⟩

/-- The last step of a meaning. -/
theorem done (h : Framed D F L P s t) : Ends (.next t) (Framed D F L P s) := h

/-- A meaning after an access that satisfies its conditions. -/
theorem andThen {α : Type} {x : Access α} {k : α → State → Result} {ok stop : State → Prop}
    (h : Framed D F L P s t) (p : x.Post (fun _ u => ok u) stop)
    (step : ∀ u, ok u → Framed D F L P t u) (fault : ∀ u, stop u → Framed D F L P t u)
    (rest : ∀ v u, Framed D F L P s u → Ends (k v u) (Framed D F L P s)) :
    Ends (x.andThen k) (Framed D F L P s) :=
  Access.ends_andThen p (fun v u r => rest v u (h.trans (step u r))) fun u r => h.trans (fault u r)

/-- A privileged meaning. -/
theorem privileged {k : State → Result} (w : causeParts ⊆ P)
    (h : Ends (k s) (Framed D F L P s)) :
    Ends (Sys2Proof.Machine.privileged s k) (Framed D F L P s) :=
  ends_privileged (fun _ => h) (of_cause _ w)

end Framed

/-! ### Marker bits (20_memory.md R55) -/

/-- Every page-table entry differs at most by marker bits that were set. -/
def Marked (s t : State) : Prop := ∀ u v, markedFrom (s.pte u v) (t.pte u v)

theorem markedFrom.refl (e : Pte) : markedFrom e e := ⟨rfl, BitVec.and_self⟩

theorem markedFrom.trans {a b c : Pte} (h : markedFrom a b) (k : markedFrom b c) :
    markedFrom a c := by
  refine ⟨k.1.trans h.1, ?_⟩
  have e : c &&& a = c &&& (b &&& a) := by rw [h.2]
  rw [e, ← BitVec.and_assoc, k.2, h.2]

theorem Marked.of_pt {s t : State} (h : t.pt = s.pt) : Marked s t := by
  intro u v
  unfold State.pte
  simp only [h]
  exact markedFrom.refl _

theorem Marked.trans {s t u : State} (h : Marked s t) (k : Marked t u) : Marked s u :=
  fun a b => (h a b).trans (k a b)

theorem markedFrom_setBits (e : Pte) (m : Pte) (h : m &&& ~~~markerBits = 0) :
    markedFrom e (e ||| m) := by
  refine ⟨?_, ?_⟩
  · apply BitVec.eq_of_getLsbD_eq
    intro i hi
    have k := congrArg (fun x => x.getLsbD i) h
    have z : BitVec.getLsbD (0 : Pte) i = false := BitVec.getLsbD_zero
    simp only [BitVec.getLsbD_and, z] at k
    simp only [BitVec.getLsbD_and, BitVec.getLsbD_or, Bool.and_or_distrib_right, k, Bool.or_false]
  · apply BitVec.eq_of_getLsbD_eq
    intro i hi
    simp only [BitVec.getLsbD_and, BitVec.getLsbD_or]
    cases e.getLsbD i <;> simp

/-- The marker bits of an access set used and written, and nothing else. -/
theorem State.mark_marked (s : State) (kind : AccessKind) (e : Option (BitVec 2 × BitVec 6)) :
    Marked s (s.mark kind e) := by
  cases e with
  | none => exact Marked.of_pt rfl
  | some p =>
    intro u v
    obtain ⟨t, i⟩ := p
    by_cases h : u = t ∧ v = i
    · obtain ⟨rfl, rfl⟩ := h
      by_cases k : kind = .write
      · simp only [State.mark, if_pos k, State.pte_setPte, and_self, if_true, setUsedWritten_eq]
        exact markedFrom_setBits _ _ (by decide)
      · simp only [State.mark, if_neg k, State.pte_setPte, and_self, if_true, setUsed_eq]
        exact markedFrom_setBits _ _ (by decide)
    · simp only [State.mark, State.pte_setPte, if_neg h]
      exact markedFrom.refl _

/-- A read or fetch sets marker bits at most. -/
theorem State.readAt_marked (s : State) (kind : AccessKind) (loc : Location) :
    (s.readAt kind loc).Post (fun _ t => Marked s t) (Marked s) := by
  cases loc with
  | shadow t i view => exact Marked.of_pt rfl
  | physical pa e =>
    simp only [State.readAt]
    split
    · exact s.mark_marked kind e
    · trivial
  | fault c t vpn =>
    refine Marked.of_pt ?_
    unfold State.mmuFault State.raiseCause
    rw [State.raiseInt_eq]

/-- A write outside the shadow window sets marker bits at most. -/
theorem State.writeAt_marked (s : State) (datum : Datum) (loc : Location)
    (h : ∀ t i view, loc ≠ .shadow t i view) :
    (s.writeAt datum loc).Post (fun _ t => Marked s t) (Marked s) := by
  cases loc with
  | shadow t i view => exact absurd rfl (h t i view)
  | physical pa e =>
    simp only [State.writeAt]
    split
    · exact (s.mark_marked .write e).trans (Marked.of_pt rfl)
    · trivial
  | fault c t vpn =>
    refine Marked.of_pt ?_
    unfold State.mmuFault State.raiseCause
    rw [State.raiseInt_eq]

end Sys2Proof.Machine
end

