-- ==== Sys2Proof/Laws/PerInstr.lean ====
section
/-! SUPPORT. The family `EncodingRow`: the word of every instruction has the fixed bits of its row of
spec/opcode_table.json. -/

namespace Sys2Proof.Laws

/-- A row of the opcode table: its mask and its match (30_encoding.md R82). -/
structure Row where
  mask : Word
  pattern : Word

/-- The row of an instruction, as the table gives it. -/
def rowOf : Instr → Row
  | .stz _ _ => ⟨0o174000, 0o000000⟩
  | .sta _ _ => ⟨0o174000, 0o004000⟩
  | .stt _ _ => ⟨0o174000, 0o010000⟩
  | .stx _ _ => ⟨0o174000, 0o014000⟩
  | .std _ _ => ⟨0o174000, 0o020000⟩
  | .ldd _ _ => ⟨0o174000, 0o024000⟩
  | .stf _ _ => ⟨0o174000, 0o030000⟩
  | .ldf _ _ => ⟨0o174000, 0o034000⟩
  | .min _ _ => ⟨0o174000, 0o040000⟩
  | .lda _ _ => ⟨0o174000, 0o044000⟩
  | .ldt _ _ => ⟨0o174000, 0o050000⟩
  | .ldx _ _ => ⟨0o174000, 0o054000⟩
  | .add _ _ => ⟨0o174000, 0o060000⟩
  | .sub _ _ => ⟨0o174000, 0o064000⟩
  | .and _ _ => ⟨0o174000, 0o070000⟩
  | .ora _ _ => ⟨0o174000, 0o074000⟩
  | .fad _ _ => ⟨0o174000, 0o100000⟩
  | .fsb _ _ => ⟨0o174000, 0o104000⟩
  | .fmu _ _ => ⟨0o174000, 0o110000⟩
  | .fdv _ _ => ⟨0o174000, 0o114000⟩
  | .mpy _ _ => ⟨0o174000, 0o120000⟩
  | .jmp _ _ => ⟨0o174000, 0o124000⟩
  | .jap _ => ⟨0o177400, 0o130000⟩
  | .jan _ => ⟨0o177400, 0o130400⟩
  | .jaz _ => ⟨0o177400, 0o131000⟩
  | .jaf _ => ⟨0o177400, 0o131400⟩
  | .jpc _ => ⟨0o177400, 0o132000⟩
  | .jnc _ => ⟨0o177400, 0o132400⟩
  | .jxz _ => ⟨0o177400, 0o133000⟩
  | .jxn _ => ⟨0o177400, 0o133400⟩
  | .jpl _ _ => ⟨0o174000, 0o134000⟩
  | .skpEql _ _ => ⟨0o177700, 0o140000⟩
  | .skpGeq _ _ => ⟨0o177700, 0o140400⟩
  | .skpGre _ _ => ⟨0o177700, 0o141000⟩
  | .skpMgre _ _ => ⟨0o177700, 0o141400⟩
  | .skpUeq _ _ => ⟨0o177700, 0o142000⟩
  | .skpLss _ _ => ⟨0o177700, 0o142400⟩
  | .skpLst _ _ => ⟨0o177700, 0o143000⟩
  | .skpMlst _ _ => ⟨0o177700, 0o143400⟩
  | .addd => ⟨0o177777, 0o140120⟩
  | .subd => ⟨0o177777, 0o140121⟩
  | .comd => ⟨0o177777, 0o140122⟩
  | .pack => ⟨0o177777, 0o140124⟩
  | .upack => ⟨0o177777, 0o140125⟩
  | .shde => ⟨0o177777, 0o140126⟩
  | .bfill => ⟨0o177777, 0o140130⟩
  | .movb => ⟨0o177777, 0o140131⟩
  | .movbf => ⟨0o177777, 0o140132⟩
  | .init => ⟨0o177777, 0o140134⟩
  | .entr => ⟨0o177777, 0o140135⟩
  | .leave => ⟨0o177777, 0o140136⟩
  | .eleav => ⟨0o177777, 0o140137⟩
  | .setpt => ⟨0o177777, 0o140300⟩
  | .clept => ⟨0o177777, 0o140301⟩
  | .clnreent => ⟨0o177777, 0o140302⟩
  | .chreentpages => ⟨0o177777, 0o140303⟩
  | .clepu => ⟨0o177777, 0o140304⟩
  | .movew => ⟨0o177777, 0o143100⟩
  | .lwcs => ⟨0o177777, 0o143500⟩
  | .tset => ⟨0o177777, 0o140123⟩
  | .rdus => ⟨0o177777, 0o140127⟩
  | .exr _ => ⟨0o177700, 0o140600⟩
  | .rmpy _ _ => ⟨0o177700, 0o141200⟩
  | .rdiv _ => ⟨0o177700, 0o141600⟩
  | .lbyt => ⟨0o177700, 0o142200⟩
  | .sbyt => ⟨0o177700, 0o142600⟩
  | .mix3 => ⟨0o177700, 0o143200⟩
  | .ldatx _ => ⟨0o177707, 0o143300⟩
  | .ldxtx _ => ⟨0o177707, 0o143301⟩
  | .lddtx _ => ⟨0o177707, 0o143302⟩
  | .ldbtx _ => ⟨0o177707, 0o143303⟩
  | .statx _ => ⟨0o177707, 0o143304⟩
  | .stztx _ => ⟨0o177707, 0o143305⟩
  | .stdtx _ => ⟨0o177707, 0o143306⟩
  | .identPL10 => ⟨0o177777, 0o143604⟩
  | .identPL11 => ⟨0o177777, 0o143611⟩
  | .identPL12 => ⟨0o177777, 0o143622⟩
  | .identPL13 => ⟨0o177777, 0o143643⟩
  | .swap _ _ _ _ => ⟨0o177400, 0o144000⟩
  | .rand _ _ _ _ => ⟨0o177400, 0o144400⟩
  | .rexo _ _ _ _ => ⟨0o177400, 0o145000⟩
  | .rora _ _ _ _ => ⟨0o177400, 0o145400⟩
  | .radd _ _ _ _ _ _ => ⟨0o176000, 0o146000⟩
  | .tra _ => ⟨0o177760, 0o150000⟩
  | .trr _ => ⟨0o177760, 0o150100⟩
  | .mcl _ => ⟨0o177760, 0o150200⟩
  | .mst _ => ⟨0o177760, 0o150300⟩
  | .opcom => ⟨0o177777, 0o150400⟩
  | .iof => ⟨0o177777, 0o150401⟩
  | .ion => ⟨0o177777, 0o150402⟩
  | .pof => ⟨0o177777, 0o150404⟩
  | .piof => ⟨0o177777, 0o150405⟩
  | .sex => ⟨0o177777, 0o150406⟩
  | .rex => ⟨0o177777, 0o150407⟩
  | .pon => ⟨0o177777, 0o150410⟩
  | .pion => ⟨0o177777, 0o150412⟩
  | .ioxt => ⟨0o177777, 0o150415⟩
  | .exam => ⟨0o177777, 0o150416⟩
  | .depo => ⟨0o177777, 0o150417⟩
  | .wait => ⟨0o177400, 0o151000⟩
  | .nlz _ => ⟨0o177400, 0o151400⟩
  | .dnz _ => ⟨0o177400, 0o152000⟩
  | .srb _ => ⟨0o177607, 0o152402⟩
  | .lrb _ => ⟨0o177607, 0o152600⟩
  | .mon _ => ⟨0o177400, 0o153000⟩
  | .irw _ _ => ⟨0o177600, 0o153400⟩
  | .irr _ _ => ⟨0o177600, 0o153600⟩
  | .sht _ _ => ⟨0o174600, 0o154000⟩
  | .shd _ _ => ⟨0o174600, 0o154200⟩
  | .sha _ _ => ⟨0o174600, 0o154400⟩
  | .sad _ _ => ⟨0o174600, 0o154600⟩
  | .iox _ => ⟨0o174000, 0o164000⟩
  | .sab _ => ⟨0o177400, 0o170000⟩
  | .saa _ => ⟨0o177400, 0o170400⟩
  | .sat _ => ⟨0o177400, 0o171000⟩
  | .sax _ => ⟨0o177400, 0o171400⟩
  | .aab _ => ⟨0o177400, 0o172000⟩
  | .aaa _ => ⟨0o177400, 0o172400⟩
  | .aat _ => ⟨0o177400, 0o173000⟩
  | .aax _ => ⟨0o177400, 0o173400⟩
  | .bsetZro _ _ => ⟨0o177600, 0o174000⟩
  | .bsetOne _ _ => ⟨0o177600, 0o174200⟩
  | .bsetBcm _ _ => ⟨0o177600, 0o174400⟩
  | .bsetBac _ _ => ⟨0o177600, 0o174600⟩
  | .bskpZro _ _ => ⟨0o177600, 0o175000⟩
  | .bskpOne _ _ => ⟨0o177600, 0o175200⟩
  | .bskpBcm _ _ => ⟨0o177600, 0o175400⟩
  | .bskpBac _ _ => ⟨0o177600, 0o175600⟩
  | .bstc _ _ => ⟨0o177600, 0o176000⟩
  | .bsta _ _ => ⟨0o177600, 0o176200⟩
  | .bldc _ _ => ⟨0o177600, 0o176400⟩
  | .blda _ _ => ⟨0o177600, 0o176600⟩
  | .banc _ _ => ⟨0o177600, 0o177000⟩
  | .band _ _ => ⟨0o177600, 0o177200⟩
  | .borc _ _ => ⟨0o177600, 0o177400⟩
  | .bora _ _ => ⟨0o177600, 0o177600⟩

/-- The word of an instruction has its row's fixed bits. -/
def EncodingRow.Statement (i : Instr) : Prop := encode i &&& (rowOf i).mask = (rowOf i).pattern

/-! ### Each format -/

theorem encMR_row (op : BitVec 5) (m : Mode) (d : BitVec 8) : encMR op m d &&& 0o174000 = op ++ 0#11 := by
  apply BitVec.eq_of_getLsbD_eq
  intro i hi
  simp only [encMR, BitVec.getLsbD_and, BitVec.getLsbD_append]
  interval_cases i <;> simp

theorem encCJ_row (cond : BitVec 3) (d : BitVec 8) :
    encCJ cond d &&& 0o177400 = 0b10110#5 ++ cond ++ 0#8 := by
  apply BitVec.eq_of_getLsbD_eq
  intro i hi
  simp only [encCJ, BitVec.getLsbD_and, BitVec.getLsbD_append]
  interval_cases i <;> simp

theorem encSK_row (cond : BitVec 3) (s d : RegField) :
    encSK cond s d &&& 0o177700 = 0b11000#5 ++ cond ++ 0#8 := by
  apply BitVec.eq_of_getLsbD_eq
  intro i hi
  simp only [encSK, BitVec.getLsbD_and, BitVec.getLsbD_append]
  interval_cases i <;> simp

theorem encXR_row (sub : BitVec 5) (hi lo : BitVec 3) :
    encXR sub hi lo &&& 0o177700 = 0b11000#5 ++ sub ++ 0#6 := by
  apply BitVec.eq_of_getLsbD_eq
  intro i hi
  simp only [encXR, BitVec.getLsbD_and, BitVec.getLsbD_append]
  interval_cases i <;> simp

theorem encTX_row (sub : BitVec 5) (hi lo : BitVec 3) :
    encXR sub hi lo &&& 0o177707 = 0b11000#5 ++ sub ++ 0#3 ++ lo := by
  apply BitVec.eq_of_getLsbD_eq
  intro i hi
  simp only [encXR, BitVec.getLsbD_and, BitVec.getLsbD_append]
  interval_cases i <;> simp

theorem encRO_row (f : BitVec 2) (cm1 cld : Bool) (s d : RegField) :
    encRO false f cm1 cld s d &&& 0o177400 = 0b11001#5 ++ 0#1 ++ f ++ 0#8 := by
  apply BitVec.eq_of_getLsbD_eq
  intro i hi
  simp only [encRO, BitVec.getLsbD_and, BitVec.getLsbD_append]
  interval_cases i <;> simp

theorem encRadd_row (f : BitVec 2) (cm1 cld : Bool) (s d : RegField) :
    encRO true f cm1 cld s d &&& 0o176000 = 0b11001#5 ++ 1#1 ++ 0#10 := by
  apply BitVec.eq_of_getLsbD_eq
  intro i hi
  simp only [encRO, BitVec.getLsbD_and, BitVec.getLsbD_append]
  interval_cases i <;> simp

theorem encM4_row (k : BitVec 2) (n : BitVec 4) :
    encM4 k n &&& 0o177760 = 0b11010#5 ++ 0#3 ++ k ++ 0#6 := by
  apply BitVec.eq_of_getLsbD_eq
  intro i hi
  simp only [encM4, BitVec.getLsbD_and, BitVec.getLsbD_append]
  interval_cases i <;> simp

theorem encM8_row (k : BitVec 3) (n : BitVec 8) :
    encM8 k n &&& 0o177400 = 0b11010#5 ++ k ++ 0#8 := by
  apply BitVec.eq_of_getLsbD_eq
  intro i hi
  simp only [encM8, BitVec.getLsbD_and, BitVec.getLsbD_append]
  interval_cases i <;> simp

theorem encBlock_row (k : BitVec 4) (level : Level) (r : BitVec 3) :
    encML k level r &&& 0o177607 = 0b11010#5 ++ k ++ 0#4 ++ r := by
  apply BitVec.eq_of_getLsbD_eq
  intro i hi
  simp only [encML, BitVec.getLsbD_and, BitVec.getLsbD_append]
  interval_cases i <;> simp

theorem encML_row (k : BitVec 4) (level : Level) (r : BitVec 3) :
    encML k level r &&& 0o177600 = 0b11010#5 ++ k ++ 0#7 := by
  apply BitVec.eq_of_getLsbD_eq
  intro i hi
  simp only [encML, BitVec.getLsbD_and, BitVec.getLsbD_append]
  interval_cases i <;> simp

theorem encSH_row (t : ShiftType) (reg : BitVec 2) (n : Int) :
    encSH t reg n &&& 0o174600 = 0b11011#5 ++ 0#2 ++ reg ++ 0#7 := by
  apply BitVec.eq_of_getLsbD_eq
  intro i hi
  simp only [encSH, BitVec.getLsbD_and, BitVec.getLsbD_append]
  interval_cases i <;> simp

theorem encIO_row (dev : BitVec 11) :
    encIO dev &&& 0o174000 = 0b11101#5 ++ 0#11 := by
  apply BitVec.eq_of_getLsbD_eq
  intro i hi
  simp only [encIO, BitVec.getLsbD_and, BitVec.getLsbD_append]
  interval_cases i <;> simp

theorem encAR_row (fn : BitVec 3) (arg : BitVec 8) :
    encAR fn arg &&& 0o177400 = 0b11110#5 ++ fn ++ 0#8 := by
  apply BitVec.eq_of_getLsbD_eq
  intro i hi
  simp only [encAR, BitVec.getLsbD_and, BitVec.getLsbD_append]
  interval_cases i <;> simp

theorem encBO_row (fn : BitVec 4) (bn : Nat) (d : RegField) :
    encBO fn bn d &&& 0o177600 = 0b11111#5 ++ fn ++ 0#7 := by
  apply BitVec.eq_of_getLsbD_eq
  intro i hi
  simp only [encBO, BitVec.getLsbD_and, BitVec.getLsbD_append]
  interval_cases i <;> simp

/-! ### Each instruction -/

theorem EncodingRow.stz (mode : Mode) (disp : BitVec 8) :
    EncodingRow.Statement (.stz mode disp) := (encMR_row _ _ _).trans rfl

theorem EncodingRow.sta (mode : Mode) (disp : BitVec 8) :
    EncodingRow.Statement (.sta mode disp) := (encMR_row _ _ _).trans rfl

theorem EncodingRow.stt (mode : Mode) (disp : BitVec 8) :
    EncodingRow.Statement (.stt mode disp) := (encMR_row _ _ _).trans rfl

theorem EncodingRow.stx (mode : Mode) (disp : BitVec 8) :
    EncodingRow.Statement (.stx mode disp) := (encMR_row _ _ _).trans rfl

theorem EncodingRow.std (mode : Mode) (disp : BitVec 8) :
    EncodingRow.Statement (.std mode disp) := (encMR_row _ _ _).trans rfl

theorem EncodingRow.ldd (mode : Mode) (disp : BitVec 8) :
    EncodingRow.Statement (.ldd mode disp) := (encMR_row _ _ _).trans rfl

theorem EncodingRow.stf (mode : Mode) (disp : BitVec 8) :
    EncodingRow.Statement (.stf mode disp) := (encMR_row _ _ _).trans rfl

theorem EncodingRow.ldf (mode : Mode) (disp : BitVec 8) :
    EncodingRow.Statement (.ldf mode disp) := (encMR_row _ _ _).trans rfl

theorem EncodingRow.min (mode : Mode) (disp : BitVec 8) :
    EncodingRow.Statement (.min mode disp) := (encMR_row _ _ _).trans rfl

theorem EncodingRow.lda (mode : Mode) (disp : BitVec 8) :
    EncodingRow.Statement (.lda mode disp) := (encMR_row _ _ _).trans rfl

theorem EncodingRow.ldt (mode : Mode) (disp : BitVec 8) :
    EncodingRow.Statement (.ldt mode disp) := (encMR_row _ _ _).trans rfl

theorem EncodingRow.ldx (mode : Mode) (disp : BitVec 8) :
    EncodingRow.Statement (.ldx mode disp) := (encMR_row _ _ _).trans rfl

theorem EncodingRow.add (mode : Mode) (disp : BitVec 8) :
    EncodingRow.Statement (.add mode disp) := (encMR_row _ _ _).trans rfl

theorem EncodingRow.sub (mode : Mode) (disp : BitVec 8) :
    EncodingRow.Statement (.sub mode disp) := (encMR_row _ _ _).trans rfl

theorem EncodingRow.and (mode : Mode) (disp : BitVec 8) :
    EncodingRow.Statement (.and mode disp) := (encMR_row _ _ _).trans rfl

theorem EncodingRow.ora (mode : Mode) (disp : BitVec 8) :
    EncodingRow.Statement (.ora mode disp) := (encMR_row _ _ _).trans rfl

theorem EncodingRow.fad (mode : Mode) (disp : BitVec 8) :
    EncodingRow.Statement (.fad mode disp) := (encMR_row _ _ _).trans rfl

theorem EncodingRow.fsb (mode : Mode) (disp : BitVec 8) :
    EncodingRow.Statement (.fsb mode disp) := (encMR_row _ _ _).trans rfl

theorem EncodingRow.fmu (mode : Mode) (disp : BitVec 8) :
    EncodingRow.Statement (.fmu mode disp) := (encMR_row _ _ _).trans rfl

theorem EncodingRow.fdv (mode : Mode) (disp : BitVec 8) :
    EncodingRow.Statement (.fdv mode disp) := (encMR_row _ _ _).trans rfl

theorem EncodingRow.mpy (mode : Mode) (disp : BitVec 8) :
    EncodingRow.Statement (.mpy mode disp) := (encMR_row _ _ _).trans rfl

theorem EncodingRow.jmp (mode : Mode) (disp : BitVec 8) :
    EncodingRow.Statement (.jmp mode disp) := (encMR_row _ _ _).trans rfl

theorem EncodingRow.jap (disp : BitVec 8) :
    EncodingRow.Statement (.jap disp) := (encCJ_row _ _).trans rfl

theorem EncodingRow.jan (disp : BitVec 8) :
    EncodingRow.Statement (.jan disp) := (encCJ_row _ _).trans rfl

theorem EncodingRow.jaz (disp : BitVec 8) :
    EncodingRow.Statement (.jaz disp) := (encCJ_row _ _).trans rfl

theorem EncodingRow.jaf (disp : BitVec 8) :
    EncodingRow.Statement (.jaf disp) := (encCJ_row _ _).trans rfl

theorem EncodingRow.jpc (disp : BitVec 8) :
    EncodingRow.Statement (.jpc disp) := (encCJ_row _ _).trans rfl

theorem EncodingRow.jnc (disp : BitVec 8) :
    EncodingRow.Statement (.jnc disp) := (encCJ_row _ _).trans rfl

theorem EncodingRow.jxz (disp : BitVec 8) :
    EncodingRow.Statement (.jxz disp) := (encCJ_row _ _).trans rfl

theorem EncodingRow.jxn (disp : BitVec 8) :
    EncodingRow.Statement (.jxn disp) := (encCJ_row _ _).trans rfl

theorem EncodingRow.jpl (mode : Mode) (disp : BitVec 8) :
    EncodingRow.Statement (.jpl mode disp) := (encMR_row _ _ _).trans rfl

theorem EncodingRow.skpEql (sr : RegField) (dr : RegField) :
    EncodingRow.Statement (.skpEql sr dr) := (encSK_row _ _ _).trans rfl

theorem EncodingRow.skpGeq (sr : RegField) (dr : RegField) :
    EncodingRow.Statement (.skpGeq sr dr) := (encSK_row _ _ _).trans rfl

theorem EncodingRow.skpGre (sr : RegField) (dr : RegField) :
    EncodingRow.Statement (.skpGre sr dr) := (encSK_row _ _ _).trans rfl

theorem EncodingRow.skpMgre (sr : RegField) (dr : RegField) :
    EncodingRow.Statement (.skpMgre sr dr) := (encSK_row _ _ _).trans rfl

theorem EncodingRow.skpUeq (sr : RegField) (dr : RegField) :
    EncodingRow.Statement (.skpUeq sr dr) := (encSK_row _ _ _).trans rfl

theorem EncodingRow.skpLss (sr : RegField) (dr : RegField) :
    EncodingRow.Statement (.skpLss sr dr) := (encSK_row _ _ _).trans rfl

theorem EncodingRow.skpLst (sr : RegField) (dr : RegField) :
    EncodingRow.Statement (.skpLst sr dr) := (encSK_row _ _ _).trans rfl

theorem EncodingRow.skpMlst (sr : RegField) (dr : RegField) :
    EncodingRow.Statement (.skpMlst sr dr) := (encSK_row _ _ _).trans rfl

theorem EncodingRow.addd :
    EncodingRow.Statement (.addd) := rfl

theorem EncodingRow.subd :
    EncodingRow.Statement (.subd) := rfl

theorem EncodingRow.comd :
    EncodingRow.Statement (.comd) := rfl

theorem EncodingRow.pack :
    EncodingRow.Statement (.pack) := rfl

theorem EncodingRow.upack :
    EncodingRow.Statement (.upack) := rfl

theorem EncodingRow.shde :
    EncodingRow.Statement (.shde) := rfl

theorem EncodingRow.bfill :
    EncodingRow.Statement (.bfill) := rfl

theorem EncodingRow.movb :
    EncodingRow.Statement (.movb) := rfl

theorem EncodingRow.movbf :
    EncodingRow.Statement (.movbf) := rfl

theorem EncodingRow.init :
    EncodingRow.Statement (.init) := rfl

theorem EncodingRow.entr :
    EncodingRow.Statement (.entr) := rfl

theorem EncodingRow.leave :
    EncodingRow.Statement (.leave) := rfl

theorem EncodingRow.eleav :
    EncodingRow.Statement (.eleav) := rfl

theorem EncodingRow.setpt :
    EncodingRow.Statement (.setpt) := rfl

theorem EncodingRow.clept :
    EncodingRow.Statement (.clept) := rfl

theorem EncodingRow.clnreent :
    EncodingRow.Statement (.clnreent) := rfl

theorem EncodingRow.chreentpages :
    EncodingRow.Statement (.chreentpages) := rfl

theorem EncodingRow.clepu :
    EncodingRow.Statement (.clepu) := rfl

theorem EncodingRow.movew :
    EncodingRow.Statement (.movew) := rfl

theorem EncodingRow.lwcs :
    EncodingRow.Statement (.lwcs) := rfl

theorem EncodingRow.tset :
    EncodingRow.Statement (.tset) := rfl

theorem EncodingRow.rdus :
    EncodingRow.Statement (.rdus) := rfl

theorem EncodingRow.exr (sr : RegField) :
    EncodingRow.Statement (.exr sr) := (encXR_row _ _ _).trans rfl

theorem EncodingRow.rmpy (sr : RegField) (dr : RegField) :
    EncodingRow.Statement (.rmpy sr dr) := (encXR_row _ _ _).trans rfl

theorem EncodingRow.rdiv (sr : RegField) :
    EncodingRow.Statement (.rdiv sr) := (encXR_row _ _ _).trans rfl

theorem EncodingRow.lbyt :
    EncodingRow.Statement (.lbyt) := (encXR_row _ _ _).trans rfl

theorem EncodingRow.sbyt :
    EncodingRow.Statement (.sbyt) := (encXR_row _ _ _).trans rfl

theorem EncodingRow.mix3 :
    EncodingRow.Statement (.mix3) := (encXR_row _ _ _).trans rfl

theorem EncodingRow.ldatx (delta : BitVec 3) :
    EncodingRow.Statement (.ldatx delta) := (encTX_row _ _ _).trans rfl

theorem EncodingRow.ldxtx (delta : BitVec 3) :
    EncodingRow.Statement (.ldxtx delta) := (encTX_row _ _ _).trans rfl

theorem EncodingRow.lddtx (delta : BitVec 3) :
    EncodingRow.Statement (.lddtx delta) := (encTX_row _ _ _).trans rfl

theorem EncodingRow.ldbtx (delta : BitVec 3) :
    EncodingRow.Statement (.ldbtx delta) := (encTX_row _ _ _).trans rfl

theorem EncodingRow.statx (delta : BitVec 3) :
    EncodingRow.Statement (.statx delta) := (encTX_row _ _ _).trans rfl

theorem EncodingRow.stztx (delta : BitVec 3) :
    EncodingRow.Statement (.stztx delta) := (encTX_row _ _ _).trans rfl

theorem EncodingRow.stdtx (delta : BitVec 3) :
    EncodingRow.Statement (.stdtx delta) := (encTX_row _ _ _).trans rfl

theorem EncodingRow.identPL10 :
    EncodingRow.Statement (.identPL10) := rfl

theorem EncodingRow.identPL11 :
    EncodingRow.Statement (.identPL11) := rfl

theorem EncodingRow.identPL12 :
    EncodingRow.Statement (.identPL12) := rfl

theorem EncodingRow.identPL13 :
    EncodingRow.Statement (.identPL13) := rfl

theorem EncodingRow.swap (cm1 : Bool) (cld : Bool) (sr : RegField) (dr : RegField) :
    EncodingRow.Statement (.swap cm1 cld sr dr) := (encRO_row _ _ _ _ _).trans rfl

theorem EncodingRow.rand (cm1 : Bool) (cld : Bool) (sr : RegField) (dr : RegField) :
    EncodingRow.Statement (.rand cm1 cld sr dr) := (encRO_row _ _ _ _ _).trans rfl

theorem EncodingRow.rexo (cm1 : Bool) (cld : Bool) (sr : RegField) (dr : RegField) :
    EncodingRow.Statement (.rexo cm1 cld sr dr) := (encRO_row _ _ _ _ _).trans rfl

theorem EncodingRow.rora (cm1 : Bool) (cld : Bool) (sr : RegField) (dr : RegField) :
    EncodingRow.Statement (.rora cm1 cld sr dr) := (encRO_row _ _ _ _ _).trans rfl

theorem EncodingRow.radd (adc : Bool) (ad1 : Bool) (cm1 : Bool) (cld : Bool) (sr : RegField) (dr : RegField) :
    EncodingRow.Statement (.radd adc ad1 cm1 cld sr dr) := (encRadd_row _ _ _ _ _).trans rfl

theorem EncodingRow.tra (n : BitVec 4) :
    EncodingRow.Statement (.tra n) := (encM4_row _ _).trans rfl

theorem EncodingRow.trr (n : BitVec 4) :
    EncodingRow.Statement (.trr n) := (encM4_row _ _).trans rfl

theorem EncodingRow.mcl (n : BitVec 4) :
    EncodingRow.Statement (.mcl n) := (encM4_row _ _).trans rfl

theorem EncodingRow.mst (n : BitVec 4) :
    EncodingRow.Statement (.mst n) := (encM4_row _ _).trans rfl

theorem EncodingRow.opcom :
    EncodingRow.Statement (.opcom) := rfl

theorem EncodingRow.iof :
    EncodingRow.Statement (.iof) := rfl

theorem EncodingRow.ion :
    EncodingRow.Statement (.ion) := rfl

theorem EncodingRow.pof :
    EncodingRow.Statement (.pof) := rfl

theorem EncodingRow.piof :
    EncodingRow.Statement (.piof) := rfl

theorem EncodingRow.sex :
    EncodingRow.Statement (.sex) := rfl

theorem EncodingRow.rex :
    EncodingRow.Statement (.rex) := rfl

theorem EncodingRow.pon :
    EncodingRow.Statement (.pon) := rfl

theorem EncodingRow.pion :
    EncodingRow.Statement (.pion) := rfl

theorem EncodingRow.ioxt :
    EncodingRow.Statement (.ioxt) := rfl

theorem EncodingRow.exam :
    EncodingRow.Statement (.exam) := rfl

theorem EncodingRow.depo :
    EncodingRow.Statement (.depo) := rfl

theorem EncodingRow.wait :
    EncodingRow.Statement (.wait) := (encM8_row _ _).trans rfl

theorem EncodingRow.nlz (scale : Int) :
    EncodingRow.Statement (.nlz scale) := (encM8_row _ _).trans rfl

theorem EncodingRow.dnz (scale : Int) :
    EncodingRow.Statement (.dnz scale) := (encM8_row _ _).trans rfl

theorem EncodingRow.srb (level : Level) :
    EncodingRow.Statement (.srb level) := (encBlock_row _ _ _).trans rfl

theorem EncodingRow.lrb (level : Level) :
    EncodingRow.Statement (.lrb level) := (encBlock_row _ _ _).trans rfl

theorem EncodingRow.mon (n : BitVec 8) :
    EncodingRow.Statement (.mon n) := (encM8_row _ _).trans rfl

theorem EncodingRow.irw (level : Level) (reg : RegField) :
    EncodingRow.Statement (.irw level reg) := (encML_row _ _ _).trans rfl

theorem EncodingRow.irr (level : Level) (reg : RegField) :
    EncodingRow.Statement (.irr level reg) := (encML_row _ _ _).trans rfl

theorem EncodingRow.sht (type : ShiftType) (count : Int) :
    EncodingRow.Statement (.sht type count) := (encSH_row _ _ _).trans rfl

theorem EncodingRow.shd (type : ShiftType) (count : Int) :
    EncodingRow.Statement (.shd type count) := (encSH_row _ _ _).trans rfl

theorem EncodingRow.sha (type : ShiftType) (count : Int) :
    EncodingRow.Statement (.sha type count) := (encSH_row _ _ _).trans rfl

theorem EncodingRow.sad (type : ShiftType) (count : Int) :
    EncodingRow.Statement (.sad type count) := (encSH_row _ _ _).trans rfl

theorem EncodingRow.iox (dev : BitVec 11) :
    EncodingRow.Statement (.iox dev) := (encIO_row _).trans rfl

theorem EncodingRow.sab (arg : BitVec 8) :
    EncodingRow.Statement (.sab arg) := (encAR_row _ _).trans rfl

theorem EncodingRow.saa (arg : BitVec 8) :
    EncodingRow.Statement (.saa arg) := (encAR_row _ _).trans rfl

theorem EncodingRow.sat (arg : BitVec 8) :
    EncodingRow.Statement (.sat arg) := (encAR_row _ _).trans rfl

theorem EncodingRow.sax (arg : BitVec 8) :
    EncodingRow.Statement (.sax arg) := (encAR_row _ _).trans rfl

theorem EncodingRow.aab (arg : BitVec 8) :
    EncodingRow.Statement (.aab arg) := (encAR_row _ _).trans rfl

theorem EncodingRow.aaa (arg : BitVec 8) :
    EncodingRow.Statement (.aaa arg) := (encAR_row _ _).trans rfl

theorem EncodingRow.aat (arg : BitVec 8) :
    EncodingRow.Statement (.aat arg) := (encAR_row _ _).trans rfl

theorem EncodingRow.aax (arg : BitVec 8) :
    EncodingRow.Statement (.aax arg) := (encAR_row _ _).trans rfl

theorem EncodingRow.bsetZro (bn : Nat) (dr : RegField) :
    EncodingRow.Statement (.bsetZro bn dr) := (encBO_row _ _ _).trans rfl

theorem EncodingRow.bsetOne (bn : Nat) (dr : RegField) :
    EncodingRow.Statement (.bsetOne bn dr) := (encBO_row _ _ _).trans rfl

theorem EncodingRow.bsetBcm (bn : Nat) (dr : RegField) :
    EncodingRow.Statement (.bsetBcm bn dr) := (encBO_row _ _ _).trans rfl

theorem EncodingRow.bsetBac (bn : Nat) (dr : RegField) :
    EncodingRow.Statement (.bsetBac bn dr) := (encBO_row _ _ _).trans rfl

theorem EncodingRow.bskpZro (bn : Nat) (dr : RegField) :
    EncodingRow.Statement (.bskpZro bn dr) := (encBO_row _ _ _).trans rfl

theorem EncodingRow.bskpOne (bn : Nat) (dr : RegField) :
    EncodingRow.Statement (.bskpOne bn dr) := (encBO_row _ _ _).trans rfl

theorem EncodingRow.bskpBcm (bn : Nat) (dr : RegField) :
    EncodingRow.Statement (.bskpBcm bn dr) := (encBO_row _ _ _).trans rfl

theorem EncodingRow.bskpBac (bn : Nat) (dr : RegField) :
    EncodingRow.Statement (.bskpBac bn dr) := (encBO_row _ _ _).trans rfl

theorem EncodingRow.bstc (bn : Nat) (dr : RegField) :
    EncodingRow.Statement (.bstc bn dr) := (encBO_row _ _ _).trans rfl

theorem EncodingRow.bsta (bn : Nat) (dr : RegField) :
    EncodingRow.Statement (.bsta bn dr) := (encBO_row _ _ _).trans rfl

theorem EncodingRow.bldc (bn : Nat) (dr : RegField) :
    EncodingRow.Statement (.bldc bn dr) := (encBO_row _ _ _).trans rfl

theorem EncodingRow.blda (bn : Nat) (dr : RegField) :
    EncodingRow.Statement (.blda bn dr) := (encBO_row _ _ _).trans rfl

theorem EncodingRow.banc (bn : Nat) (dr : RegField) :
    EncodingRow.Statement (.banc bn dr) := (encBO_row _ _ _).trans rfl

theorem EncodingRow.band (bn : Nat) (dr : RegField) :
    EncodingRow.Statement (.band bn dr) := (encBO_row _ _ _).trans rfl

theorem EncodingRow.borc (bn : Nat) (dr : RegField) :
    EncodingRow.Statement (.borc bn dr) := (encBO_row _ _ _).trans rfl

theorem EncodingRow.bora (bn : Nat) (dr : RegField) :
    EncodingRow.Statement (.bora bn dr) := (encBO_row _ _ _).trans rfl

end Sys2Proof.Laws
end

