-- ==== Sys2Proof/Laws/Turns.lean ====
section
/-! SUPPORT. The CPU's turn: what a step then is, whether the script is empty or names the CPU
(spec/00_scope.md R9; log 8). -/

namespace Sys2Proof.Machine

/-! ### `turnTaken` -/

@[simp] theorem State.banks_turnTaken (s : State) : s.turnTaken.banks = s.banks := rfl
@[simp] theorem State.ioni_turnTaken (s : State) : s.turnTaken.ioni = s.ioni := rfl
@[simp] theorem State.poni_turnTaken (s : State) : s.turnTaken.poni = s.poni := rfl
@[simp] theorem State.sexi_turnTaken (s : State) : s.turnTaken.sexi = s.sexi := rfl
@[simp] theorem State.pil_turnTaken (s : State) : s.turnTaken.pil = s.pil := rfl
@[simp] theorem State.pid_turnTaken (s : State) : s.turnTaken.pid = s.pid := rfl
@[simp] theorem State.pie_turnTaken (s : State) : s.turnTaken.pie = s.pie := rfl
@[simp] theorem State.iid_turnTaken (s : State) : s.turnTaken.iid = s.iid := rfl
@[simp] theorem State.iie_turnTaken (s : State) : s.turnTaken.iie = s.iie := rfl
@[simp] theorem State.pvl_turnTaken (s : State) : s.turnTaken.pvl = s.pvl := rfl
@[simp] theorem State.identChain_turnTaken (s : State) : s.turnTaken.identChain = s.identChain := rfl
@[simp] theorem State.pt_turnTaken (s : State) : s.turnTaken.pt = s.pt := rfl
@[simp] theorem State.pcr_turnTaken (s : State) : s.turnTaken.pcr = s.pcr := rfl
@[simp] theorem State.pgs_turnTaken (s : State) : s.turnTaken.pgs = s.pgs := rfl
@[simp] theorem State.runMode_turnTaken (s : State) : s.turnTaken.runMode = s.runMode := rfl
@[simp] theorem State.mem_turnTaken (s : State) : s.turnTaken.mem = s.mem := rfl
@[simp] theorem State.physWords_turnTaken (s : State) : s.turnTaken.physWords = s.physWords := rfl
@[simp] theorem State.ext_turnTaken (s : State) : s.turnTaken.ext = s.ext := rfl
@[simp] theorem State.ioCount_turnTaken (s : State) : s.turnTaken.ioCount = s.ioCount := rfl

/-- With an empty script taking the turn changes nothing. -/
theorem State.turnTaken_of_nil {s : State} (h : s.turns = []) : s.turnTaken = s := by
  unfold State.turnTaken
  rw [h]
  cases s
  cases h
  rfl

/-- When it is the CPU's turn, a step is the CPU's turn from the state with the turn taken. -/
theorem step_of_cpusTurn {s : State} (h : s.cpusTurn) : step s = cpuTurn s.turnTaken := by
  have halted : s.runMode = .shutdown → cpuTurn s.turnTaken = .fault .shutdown := fun e => by
    simp [cpuTurn, e]
  by_cases e : s.runMode = .shutdown
  · rw [halted e]; simp [step, machineTurn, e]
  · rcases h with h | h
    · rw [State.turnTaken_of_nil h]; simp [step, machineTurn, e, h]
    · cases k : s.turns with
      | nil => rw [k] at h; exact absurd h (by simp)
      | cons a rest =>
        have : a = .cpu := by rw [k] at h; simpa using h
        subst this
        simp only [step, machineTurn, e, k, if_false, State.turnTaken, List.tail_cons]

/-- In RUN the CPU's turn is a CPU step. -/
theorem step_of_run {s : State} (h : s.cpusTurn) (r : s.runMode = .run) :
    step s = cpuStep s.turnTaken := by
  rw [step_of_cpusTurn h]; simp [cpuTurn, r]

end Sys2Proof.Machine
end

