-- ==== Sys2Proof/Tests/Slice0.lean ====
section
/-! SUPPORT. The model's own tests. Words and expected results are taken from the encoding tables of
30_encoding.md and the vectors of 95_test_vectors.md. -/

namespace Sys2Proof.Tests

open Sys2Proof.Machine

/-! ### WellFormed: each check refuses an operand that does not fit (30_encoding.md R85) -/

theorem test_shift_count_refused : (Instr.sad .lin 32).wellFormed = false ∧
    (Instr.sht .plain (-33)).wellFormed = false ∧ (Instr.sad .lin 31).wellFormed = true ∧
    (Instr.sht .plain (-32)).wellFormed = true := by decide

theorem test_scale_refused : (Instr.nlz 128).wellFormed = false ∧ (Instr.dnz (-129)).wellFormed =
      false ∧
    (Instr.nlz 127).wellFormed = true ∧ (Instr.dnz (-128)).wellFormed = true := by decide

theorem test_bit_number_refused : (Instr.bsetZro 16 none).wellFormed = false ∧
    (Instr.bsetZro 15 none).wellFormed = true := by decide

/-! ### Decode: words written out from the tables of 30_encoding.md R86 to R88 -/

theorem test_decode_memory_reference_stores :
    decode 0o000377 = .ok (.stz .pRel 0xFF) ∧
    decode 0o004403 = .ok (.sta .bRel 3) ∧
    decode 0o011002 = .ok (.stt .indP 2) ∧
    decode 0o015601 = .ok (.stx .indB 0x81) ∧
    decode 0o022005 = .ok (.std .xIdx 5) ∧
    decode 0o032400 = .ok (.stf .bxIdx 0) ∧
    decode 0o042000 = .ok (.min .xIdx 0) := by
  decide

theorem test_decode_memory_reference_loads :
    decode 0o027176 = .ok (.ldd .indPX 0x7E) ∧
    decode 0o037401 = .ok (.ldf .indBX 1) ∧
    decode 0o045001 = .ok (.lda .indP 1) ∧
    decode 0o050400 = .ok (.ldt .bRel 0) ∧
    decode 0o056400 = .ok (.ldx .bxIdx 0) ∧
    decode 0o060401 = .ok (.add .bRel 1) ∧
    decode 0o064001 = .ok (.sub .pRel 1) ∧
    decode 0o071600 = .ok (.and .indB 0x80) ∧
    decode 0o074400 = .ok (.ora .bRel 0) ∧
    decode 0o100003 = .ok (.fad .pRel 3) ∧
    decode 0o104403 = .ok (.fsb .bRel 3) ∧
    decode 0o112007 = .ok (.fmu .xIdx 7) ∧
    decode 0o116777 = .ok (.fdv .bxIdx 0xFF) ∧
    decode 0o120001 = .ok (.mpy .pRel 1) := by
  decide

theorem test_decode_jumps :
    decode 0o124375 = .ok (.jmp .pRel 0xFD) ∧
    decode 0o135002 = .ok (.jpl .indP 2) ∧
    decode 0o130002 = .ok (.jap 2) ∧
    decode 0o130777 = .ok (.jan 0xFF) ∧
    decode 0o131005 = .ok (.jaz 5) ∧
    decode 0o131405 = .ok (.jaf 5) ∧
    decode 0o132376 = .ok (.jpc 0xFE) ∧
    decode 0o132777 = .ok (.jnc 0xFF) ∧
    decode 0o133002 = .ok (.jxz 2) ∧
    decode 0o133402 = .ok (.jxn 2) := by
  decide

theorem test_decode_skips :
    decode 0o140065 = .ok (.skpEql (some .t) (some .a)) ∧
    decode 0o140465 = .ok (.skpGeq (some .t) (some .a)) ∧
    decode 0o141025 = .ok (.skpGre (some .p) (some .a)) ∧
    decode 0o141465 = .ok (.skpMgre (some .t) (some .a)) ∧
    decode 0o142007 = .ok (.skpUeq none (some .x)) ∧
    decode 0o142413 = .ok (.skpLss (some .d) (some .b)) ∧
    decode 0o143065 = .ok (.skpLst (some .t) (some .a)) ∧
    decode 0o143464 = .ok (.skpMlst (some .t) (some .l)) := by
  decide

theorem test_decode_unimplemented :
    decode 0o140120 = .ok .addd ∧
    decode 0o140121 = .ok .subd ∧
    decode 0o140122 = .ok .comd ∧
    decode 0o140124 = .ok .pack ∧
    decode 0o140125 = .ok .upack ∧
    decode 0o140126 = .ok .shde ∧
    decode 0o140130 = .ok .bfill ∧
    decode 0o140131 = .ok .movb ∧
    decode 0o140132 = .ok .movbf ∧
    decode 0o140134 = .ok .init ∧
    decode 0o140135 = .ok .entr ∧
    decode 0o140136 = .ok .leave ∧
    decode 0o140137 = .ok .eleav ∧
    decode 0o140300 = .ok .setpt ∧
    decode 0o140301 = .ok .clept ∧
    decode 0o140302 = .ok .clnreent ∧
    decode 0o140303 = .ok .chreentpages ∧
    decode 0o140304 = .ok .clepu ∧
    decode 0o143100 = .ok .movew ∧
    decode 0o143500 = .ok .lwcs ∧
    decode 0o143353 = .ok (.ldbtx 5) := by
  decide

theorem test_decode_extended :
    decode 0o140123 = .ok .tset ∧
    decode 0o140127 = .ok .rdus ∧
    decode 0o140650 = .ok (.exr (some .a)) ∧
    decode 0o141251 = .ok (.rmpy (some .a) (some .d)) ∧
    decode 0o141660 = .ok (.rdiv (some .t)) ∧
    decode 0o142200 = .ok .lbyt ∧
    decode 0o142600 = .ok .sbyt ∧
    decode 0o143200 = .ok .mix3 ∧
    decode 0o143604 = .ok .identPL10 ∧
    decode 0o143611 = .ok .identPL11 ∧
    decode 0o143622 = .ok .identPL12 ∧
    decode 0o143643 = .ok .identPL13 := by
  decide

theorem test_decode_physical_memory :
    decode 0o143320 = .ok (.ldatx 2) ∧
    decode 0o143371 = .ok (.ldxtx 7) ∧
    decode 0o143302 = .ok (.lddtx 0) ∧
    decode 0o143314 = .ok (.statx 1) ∧
    decode 0o143345 = .ok (.stztx 4) ∧
    decode 0o143376 = .ok (.stdtx 7) ∧
    decode 0o150416 = .ok .exam ∧
    decode 0o150417 = .ok .depo := by
  decide

theorem test_decode_register_operations :
    decode 0o144257 = .ok (.swap true false (some .a) (some .x)) ∧
    decode 0o144557 = .ok (.rand false true (some .a) (some .x)) ∧
    decode 0o145055 = .ok (.rexo false false (some .a) (some .a)) ∧
    decode 0o145656 = .ok (.rora true false (some .a) (some .t)) ∧
    decode 0o147405 = .ok (.radd true true false false none (some .a)) ∧
    decode 0o146657 = .ok (.radd false true true false (some .a) (some .x)) ∧
    decode 0o147001 = .ok (.radd true false false false none (some .d)) := by
  decide

theorem test_decode_internal_registers_and_modes :
    decode 0o150014 = .ok (.tra 0o14) ∧
    decode 0o150107 = .ok (.trr 7) ∧
    decode 0o150206 = .ok (.mcl 6) ∧
    decode 0o150301 = .ok (.mst 1) ∧
    decode 0o150400 = .ok .opcom ∧
    decode 0o150401 = .ok .iof ∧
    decode 0o150402 = .ok .ion ∧
    decode 0o150404 = .ok .pof ∧
    decode 0o150405 = .ok .piof ∧
    decode 0o150406 = .ok .sex ∧
    decode 0o150407 = .ok .rex ∧
    decode 0o150410 = .ok .pon ∧
    decode 0o150412 = .ok .pion := by
  decide

theorem test_decode_levels_and_calls :
    decode 0o151000 = .ok .wait ∧
    decode 0o151601 = .ok (.nlz (-127)) ∧
    decode 0o152360 = .ok (.dnz (-16)) ∧
    decode 0o152402 = .ok (.srb 0) ∧
    decode 0o152610 = .ok (.lrb 1) ∧
    decode 0o153003 = .ok (.mon 3) ∧
    decode 0o153412 = .ok (.irw 1 (some .p)) ∧
    decode 0o153632 = .ok (.irr 3 (some .p)) ∧
    decode 0o150415 = .ok .ioxt ∧
    decode 0o164300 = .ok (.iox 0o300) := by
  decide

theorem test_decode_shifts :
    decode 0o154003 = .ok (.sht .plain 3) ∧
    decode 0o155204 = .ok (.shd .rot 4) ∧
    decode 0o156474 = .ok (.sha .zin (-4)) ∧
    decode 0o157677 = .ok (.sad .lin (-1)) := by
  decide

theorem test_decode_argument_instructions :
    decode 0o170040 = .ok (.sab 0o40) ∧
    decode 0o170600 = .ok (.saa 0o200) ∧
    decode 0o171177 = .ok (.sat 0o177) ∧
    decode 0o171775 = .ok (.sax 0o375) ∧
    decode 0o172002 = .ok (.aab 2) ∧
    decode 0o172401 = .ok (.aaa 1) ∧
    decode 0o173376 = .ok (.aat 0o376) ∧
    decode 0o173401 = .ok (.aax 1) := by
  decide

theorem test_decode_bit_instructions :
    decode 0o174060 = .ok (.bsetZro 6 none) ∧
    decode 0o174375 = .ok (.bsetOne 15 (some .a)) ∧
    decode 0o174407 = .ok (.bsetBcm 0 (some .x)) ∧
    decode 0o174616 = .ok (.bsetBac 1 (some .t)) ∧
    decode 0o175060 = .ok (.bskpZro 6 none) ∧
    decode 0o175375 = .ok (.bskpOne 15 (some .a)) ∧
    decode 0o175405 = .ok (.bskpBcm 0 (some .a)) ∧
    decode 0o175612 = .ok (.bskpBac 1 (some .p)) ∧
    decode 0o176005 = .ok (.bstc 0 (some .a)) ∧
    decode 0o176205 = .ok (.bsta 0 (some .a)) ∧
    decode 0o176460 = .ok (.bldc 6 none) ∧
    decode 0o176775 = .ok (.blda 15 (some .a)) ∧
    decode 0o177023 = .ok (.banc 2 (some .b)) ∧
    decode 0o177234 = .ok (.band 3 (some .l)) ∧
    decode 0o177445 = .ok (.borc 4 (some .a)) ∧
    decode 0o177656 = .ok (.bora 5 (some .t)) := by
  decide

/-- R90: no row matches these; R92: the bits 5:4 of format M4 must be 00. -/
theorem test_decode_illegal :
    decode 0o160000 = .error .unassigned ∧ decode 0o163777 = .error .unassigned ∧
    decode 0o140133 = .error .extendedSlot ∧ decode 0o143307 = .error .extendedSlot ∧
    decode 0o150020 = .error .systemSlot ∧ decode 0o150403 = .error .systemSlot ∧
    decode 0o152400 = .error .systemSlot := by
  decide

/-- R92: the ignored bits. -/
theorem test_decode_ignores :
    decode 0o154503 = decode 0o154403 ∧ decode 0o141667 = decode 0o141660 ∧
    decode 0o143277 = decode 0o143200 ∧ decode 0o151377 = decode 0o151000 := by
  decide

/-- The table's numbering of bits is the word itself, its high byte at the even address. -/
theorem test_decodeTableWord : decodeTableWord 16 0o045001 = some (.lda .indP 1) ∧
    decodeBytes [0x4A, 0x01] = .ok (.lda .indP 1, []) ∧
    decodeTableWord 16 0o160000 = none := by decide

/-! ### One step: the vectors of 95_test_vectors.md

`base` is the state of the vectors: after reset, RunMode RUN. `runs s w ok` says that the step from
      `s`
with the word `w` at P gives a next state that satisfies `ok`. -/

/-- The state after reset, running, P at 0o1000. -/
def base : State := { State.reset with runMode := .run }.setCur .p 0o1000

/-- The step that executes a word gives a next state that satisfies a test. -/
def runs (s : State) (w : Nat) (ok : State → Bool) : Bool :=
  match step (s.withFetchWord 16 w) with
  | .next t => ok t
  | _ => false

/-- A word of memory, set without regard to P. -/
def put (s : State) (a v : Nat) : State := s.setPhys (BitVec.ofNat 24 a) (BitVec.ofNat 16 v)

/-- Paging on at level 0 with page 0 open to all, page 2 (from 0o4000) described by `e`, X there. -/
def paged (e : Pte) : State :=
  { ((base.setPte 0 0 0xE0000000).setPte 0 2 e).setCur .x 0o4000 with poni := true }

theorem test_stz :
    runs (base.setCur .b 0o1000) 0o402 (fun t => t.phys 0o1002 == 0) := by
  decide

theorem test_sta :
    runs ((base.setCur .p 0o100).setCur .a 0o123456) 0o4002 (fun t => t.phys 0o102 == 0o123456 &&
      t.cur .p == 0o101) ∧
    runs (({ (paged 0xC0003FFF) with sexi := true } : State).setCur .a 0o77) 0o6000 (fun t =>
      t.phys 0o77776000 == 0o77) := by
  decide

theorem test_stt :
    runs ((base.setCur .x 0o500).setCur .t 7) 0o12000 (fun t => t.phys 0o500 == 7) := by
  decide

theorem test_stx :
    runs ((base.setCur .b 0o1000).setCur .x 5) 0o14777 (fun t => t.phys 0o777 == 5) := by
  decide

theorem test_std :
    runs (((base.setCur .b 0o177777).setCur .a 1).setCur .d 2) 0o20400 (fun t => t.phys 0 == 2 &&
      t.pte 3 0o77 == 0x1 && t.phys 0o177777 == 0) := by
  decide

theorem test_ldd :
    runs (put (put (base.setCur .b 0o300) 0o300 1) 0o301 2) 0o24400 (fun t => t.cur .a == 1 &&
      t.cur .d == 2) := by
  decide

theorem test_stf :
    runs ((((base.setCur .b 0o400).setCur .t 0o40001).setCur .a 0o100000).setCur .d 0) 0o30400 (fun
      t => t.phys 0o400 == 0o40001 && t.phys 0o401 == 0o100000 && t.phys 0o402 == 0) := by
  decide

theorem test_ldf :
    runs (put (put (base.setCur .b 0o400) 0o400 0o40001) 0o401 0o100000) 0o34400 (fun t => t.cur .t
      == 0o40001 && t.cur .a == 0o100000 && t.cur .d == 0) := by
  decide

theorem test_min :
    runs (put ((base.setCur .p 0o50).setCur .b 0o200) 0o200 0o177777) 0o40400 (fun t => t.phys
      0o200 == 0 && t.cur .p == 0o52) ∧
    runs (put ((base.setCur .p 0o50).setCur .b 0o200) 0o200 7) 0o40400 (fun t => t.phys 0o200 ==
      0o10 && t.cur .p == 0o51) := by
  decide

theorem test_lda :
    runs (put (put (put ((base.setCur .b 0o2000).setCur .x 0o10) 0o776 0o4000) 0o1776 0o5000)
      0o5010 0o116) 0o47776 (fun t => t.cur .a == 0o116) ∧
    runs ((paged 0xE2000005).setCur .a 0o77) 0o46000 (fun t => t.iid == 4 && t.pgs == 2) := by
  decide

theorem test_ldt :
    runs (put (base.setCur .b 0o300) 0o300 1) 0o50400 (fun t => t.cur .t == 1) := by
  decide

theorem test_ldx :
    runs (put ((base.setCur .x 0o300).setCur .b 0) 0o300 0o55) 0o56400 (fun t => t.cur .x == 0o55
      && t.cur .p == 0o1001) := by
  decide

theorem test_add :
    runs ((put (base.setCur .b 0o100) 0o101 5).setCur .a 3) 0o60401 (fun t => t.cur .a == 0o10 &&
      !t.flag .c && !t.flag .q) := by
  decide

theorem test_sub :
    runs (put ((base.setCur .p 0o100).setCur .a 0o100000) 0o101 1) 0o64001 (fun t => t.cur .a ==
      0o77777 && t.flag .c && t.flag .q && t.flag .o) ∧
    runs (put ((base.setCur .p 0o100).setCur .a 0) 0o101 1) 0o64001 (fun t => t.cur .a == 0o177777
      && !t.flag .c && !t.flag .q) := by
  decide

theorem test_and :
    runs (put ((base.setCur .b 0o300).setCur .a 0o170017) 0o300 0o7417) 0o70400 (fun t => t.cur .a
      == 0o17) := by
  decide

theorem test_ora :
    runs (put ((base.setCur .b 0o300).setCur .a 0o170000) 0o300 0o17) 0o74400 (fun t => t.cur .a ==
      0o170017) := by
  decide

theorem test_fad :
    runs (put (put (put ((((base.setCur .p 0o100).setCur .t 0o40001).setCur .a 0o177777).setCur .d
      0o177777) 0o103 0o37742) 0o104 0o140000) 0o105 0) 0o100003 (fun t => t.cur .t == 0o40002 &&
      t.cur .a == 0o100000 && t.cur .d == 0 && !t.flag .z) ∧
    runs (put (put (put ((((base.setCur .p 0o100).setCur .t 0o77777).setCur .a 0o177777).setCur .d
      0o177777) 0o103 0o77777) 0o104 0o177777) 0o105 0o177777) 0o100003 (fun t => t.cur .t ==
      0o77777 && t.cur .a == 0o177777 && t.cur .d == 0o177777 && t.flag .z) := by
  decide

theorem test_fsb :
    runs (put (put (put ((((base.setCur .p 0o100).setCur .t 0o40001).setCur .a 0o100000).setCur .d
      0) 0o103 0o37742) 0o104 0o140000) 0o105 0) 0o104003 (fun t => t.cur .t == 0o40000 && t.cur .a
      == 0o177777 && t.cur .d == 0o177776 && !t.flag .z) ∧
    runs (put (put (put ((((base.setCur .p 0o100).setCur .t 1).setCur .a 0o100000).setCur .d 1)
      0o103 1) 0o104 0o100000) 0o105 0) 0o104003 (fun t => t.cur .t == 0 && t.cur .a == 0 && t.cur
      .d == 0 && t.flag .z) := by
  decide

theorem test_fmu :
    runs (put (put (put ((((base.setCur .p 0o100).setCur .t 0o40002).setCur .a 0o140000).setCur .d
      0) 0o103 0o40002) 0o104 0o140000) 0o105 0) 0o110003 (fun t => t.cur .t == 0o40004 && t.cur .a
      == 0o110000 && t.cur .d == 0 && !t.flag .z) ∧
    runs (put (put (put ((((base.setCur .p 0o100).setCur .t 0o100000).setCur .a 0o100000).setCur .d
      0) 0o103 0o40000) 0o104 0o100000) 0o105 0) 0o110003 (fun t => t.cur .t == 0o100000 && t.cur
      .a == 0 && t.cur .d == 0 && t.flag .z) := by
  decide

theorem test_fdv :
    runs (put (put (put ((((base.setCur .p 0o100).setCur .t 0o40001).setCur .a 0o100000).setCur .d
      0) 0o103 0o40002) 0o104 0o140000) 0o105 0) 0o114003 (fun t => t.cur .t == 0o37777 && t.cur .a
      == 0o125252 && t.cur .d == 0o125252 && !t.flag .z) ∧
    runs (put (put (put ((((base.setCur .p 0o100).setCur .t 0o40001).setCur .a 0o100000).setCur .d
      0) 0o103 0) 0o104 0) 0o105 0) 0o114003 (fun t => t.cur .t == 0o40001 && t.cur .a == 0o100000
      && t.cur .d == 0 && t.flag .z) := by
  decide

theorem test_mpy :
    runs (put (((base.setCur .p 0o100).setCurFlags 0o20).setCur .a 0o266) 0o101 0o266) 0o120001
      (fun t => t.cur .a == 0o100544 && t.flag .q && t.flag .o) ∧
    runs (put (((base.setCur .p 0o100).setCurFlags 0o20).setCur .a 0o177775) 0o101 5) 0o120001 (fun
      t => t.cur .a == 0o177761 && !t.flag .q) := by
  decide

theorem test_jmp :
    runs (base.setCur .p 0o105) 0o124375 (fun t => t.cur .p == 0o102) := by
  decide

theorem test_jap :
    runs (base.setCur .a 0) 0o130002 (fun t => t.cur .p == 0o1002) ∧
    runs (base.setCur .a 0o100000) 0o130002 (fun t => t.cur .p == 0o1001) := by
  decide

theorem test_jan :
    runs (base.setCur .a 0o100000) 0o130777 (fun t => t.cur .p == 0o777) := by
  decide

theorem test_jaz :
    runs (base.setCur .a 0) 0o131005 (fun t => t.cur .p == 0o1005) := by
  decide

theorem test_jaf :
    runs ((base.setCur .p 0o20).setCur .a 1) 0o131405 (fun t => t.cur .p == 0o25) := by
  decide

theorem test_jpc :
    runs (base.setCur .x 0o77777) 0o132376 (fun t => t.cur .x == 0o100000 && t.cur .p == 0o1001) ∧
    runs (base.setCur .x 0o177777) 0o132376 (fun t => t.cur .x == 0 && t.cur .p == 0o776) := by
  decide

theorem test_jnc :
    runs (base.setCur .x 0o177776) 0o132777 (fun t => t.cur .x == 0o177777 && t.cur .p == 0o777) ∧
    runs (base.setCur .x 0o177777) 0o132777 (fun t => t.cur .x == 0 && t.cur .p == 0o1001) := by
  decide

theorem test_jxz :
    runs (base.setCur .x 0) 0o133002 (fun t => t.cur .p == 0o1002) := by
  decide

theorem test_jxn :
    runs (base.setCur .x 0o100000) 0o133402 (fun t => t.cur .p == 0o1002) := by
  decide

theorem test_jpl :
    runs (put (base.setCur .p 0o100) 0o102 0o400) 0o135002 (fun t => t.cur .l == 0o101 && t.cur .p
      == 0o400) := by
  decide

theorem test_skpEql :
    runs (((base.setCur .a 7).setCur .t 7).setCurFlags 0o377) 0o140065 (fun t => t.cur .p == 0o1002
      && t.curFlags == 0o377) := by
  decide

theorem test_skpGeq :
    runs ((base.setCur .a 0o77777).setCur .t 0o177777) 0o140465 (fun t => t.cur .p == 0o1001) := by
  decide

theorem test_skpGre :
    runs ((base.setCur .a 0o77777).setCur .t 0o177777) 0o141065 (fun t => t.cur .p == 0o1002) := by
  decide

theorem test_skpMgre :
    runs ((base.setCur .a 0o177777).setCur .t 1) 0o141465 (fun t => t.cur .p == 0o1002) ∧
    runs ((base.setCur .a 1).setCur .t 0o177777) 0o141465 (fun t => t.cur .p == 0o1001) := by
  decide

theorem test_skpUeq :
    runs (base.setCur .x 0) 0o142007 (fun t => t.cur .p == 0o1001) := by
  decide

theorem test_skpLss :
    runs ((base.setCur .a 0o100000).setCur .t 1) 0o142465 (fun t => t.cur .p == 0o1001) := by
  decide

theorem test_skpLst :
    runs ((base.setCur .a 0o100000).setCur .t 1) 0o143065 (fun t => t.cur .p == 0o1002) := by
  decide

theorem test_skpMlst :
    runs ((base.setCur .a 1).setCur .t 2) 0o143465 (fun t => t.cur .p == 0o1002) := by
  decide

theorem test_movb :
    runs base 0o140131 (fun t => t.runMode == .shutdown && t.cur .p == 0o1000) := by
  decide

theorem test_tset :
    runs (put (base.setCur .x 0o600) 0o600 0) 0o140123 (fun t => t.cur .t == 0 && t.phys 0o600 ==
      0o177777) := by
  decide

theorem test_rdus :
    runs (put (base.setCur .x 0o600) 0o600 0o1234) 0o140127 (fun t => t.cur .t == 0o1234) := by
  decide

theorem test_exr :
    runs ((base.setCur .p 0o200).setCur .a 0o140660) 0o140650 (fun t => t.flag .z && t.cur .p ==
      0o201 && t.cur .a == 0o140660) ∧
    runs ((base.setCur .p 0o200).setCur .a 0o124005) 0o140650 (fun t => t.cur .p == 0o205) := by
  decide

theorem test_rmpy :
    runs (((base.setCurFlags 0o60).setCur .a 0o100000).setCur .d 0o77777) 0o141251 (fun t => t.cur
      .a == 0o140000 && t.cur .d == 0o100000) ∧
    runs (((base.setCurFlags 0o60).setCur .a 3).setCur .d 5) 0o141251 (fun t => t.cur .a == 0 &&
      t.cur .d == 0o17 && !t.flag .q && t.flag .o) := by
  decide

theorem test_rdiv :
    runs ((((base.setCurFlags 0o160).setCur .a 0o177777).setCur .d 0o177771).setCur .t 2) 0o141660
      (fun t => t.cur .a == 0o177775 && t.cur .d == 0o177777 && t.curFlags == 0o160) ∧
    runs ((((base.setCurFlags 0o160).setCur .a 0).setCur .d 7).setCur .t 0o177776) 0o141660 (fun t
      => t.cur .a == 0o177775 && t.cur .d == 1 && t.curFlags == 0o160) := by
  decide

theorem test_lbyt :
    runs ((put (put (base.setCur .t 0o500) 0o500 0o123321) 0o501 0o7417).setCur .x 0) 0o142200 (fun
      t => t.cur .a == 0o246) ∧
    runs ((put (put (base.setCur .t 0o500) 0o500 0o123321) 0o501 0o7417).setCur .x 1) 0o142200 (fun
      t => t.cur .a == 0o321) := by
  decide

theorem test_sbyt :
    runs ((put ((base.setCur .t 0o500).setCur .a 0o1377) 0o500 0o123321).setCur .x 0) 0o142600 (fun
      t => t.phys 0o500 == 0o177721) ∧
    runs ((((base.setPte 1 2 0xE0000005).setCur .t 0o177400).setCur .x 0o205).setCur .a 7) 0o142600
      (fun t => t.pte 1 2 == 0xE0000007) := by
  decide

theorem test_mix3 :
    runs (base.setCur .a 0) 0o143200 (fun t => t.cur .x == 0o177775) := by
  decide

theorem test_ldatx :
    runs (put (base.setCur .x 0o500) 0o502 0o66) 0o143320 (fun t => t.cur .a == 0o66) := by
  decide

/-- From the instruction's rule; the spec gives no vector. -/
theorem test_ldxtx :
    runs (put ((base.setCur .t 1).setCur .x 2) 0o200003 0o66) 0o143311 (fun t => t.cur .x == 0o66
      && t.cur .t == 1 && t.cur .p == 0o1001) := by
  decide

/-- From the instruction's rule; the spec gives no vector. -/
theorem test_lddtx :
    runs (put (put ((base.setCur .t 0).setCur .x 0o500) 0o500 6) 0o501 7) 0o143302 (fun t => t.cur
      .a == 6 && t.cur .d == 7) := by
  decide

/-- From the instruction's rule; the spec gives no vector. -/
theorem test_statx :
    runs (((base.setCur .t 0).setCur .x 0o500).setCur .a 5) 0o143314 (fun t => t.phys 0o501 == 5 &&
      t.phys 0o500 == 0) := by
  decide

/-- From the instruction's rule; the spec gives no vector. -/
theorem test_stztx :
    runs (put ((base.setCur .t 0).setCur .x 0o500) 0o500 5) 0o143305 (fun t => t.phys 0o500 == 0)
      := by
  decide

theorem test_stdtx :
    runs ((((base.setCur .t 0o377).setCur .x 0o177777).setCur .a 1).setCur .d 2) 0o143376 (fun t =>
      t.phys 6 == 1 && t.phys 7 == 2) := by
  decide

theorem test_identPL10 :
    runs (({ base with pil := 0o12 }.setCur .p 0o1000).setCur .a 5) 0o143604 (fun t => t.cur .a ==
      5 && t.iid == 0o200 && t.cur .p == 0o1001) := by
  decide

/-- From the instruction's rule; the spec gives no vector. -/
theorem test_identPL11 :
    runs ({ base with identChain := [⟨0o13, 5, 1⟩] } : State) 0o143611 (fun t => t.cur .a == 5) :=
      by
  decide

theorem test_identPL12 :
    runs ({ ({ base with pil := 0o14 }.setCur .p 0o1000).setCur .a 0o77 with identChain := [⟨0o12,
      5, 1⟩, ⟨0o14, 0o21, 2⟩, ⟨0o14, 0o22, 3⟩, ⟨0o13, 7, 4⟩] } : State) 0o143622 (fun t => t.cur .a
      == 0o21 && t.identChain == [⟨0o12, 5, 1⟩, ⟨0o14, 0o22, 3⟩, ⟨0o13, 7, 4⟩]) := by
  decide

/-- From the instruction's rule; the spec gives no vector. -/
theorem test_identPL13 :
    runs ({ base with identChain := [⟨0o13, 5, 1⟩] } : State) 0o143643 (fun t => t.iid == 0o200 &&
      t.cur .a == 0) := by
  decide

theorem test_swap :
    runs (base.setCur .a 0o2000) 0o144025 (fun t => t.cur .a == 0o1000 && t.cur .p == 0o2000) ∧
    runs ((base.setCur .a 1).setCur .x 2) 0o144257 (fun t => t.cur .a == 2 && t.cur .x == 0o177776)
      := by
  decide

theorem test_rand :
    runs ((base.setCur .a 0o377).setCur .t 0o123456) 0o144456 (fun t => t.cur .t == 0o56) := by
  decide

theorem test_rexo :
    runs (base.setCur .a 0o1234) 0o145055 (fun t => t.cur .a == 0) := by
  decide

theorem test_rora :
    runs ((base.setCur .a 0o170000).setCur .t 0o17) 0o145656 (fun t => t.cur .t == 0o7777) := by
  decide

theorem test_radd :
    runs ((base.setCur .a 0o177777).setCurFlags 0o100) 0o147055 (fun t => t.cur .a == 0o177777 &&
      t.flag .c) ∧
    runs (base.setCur .l 0o101) 0o146142 (fun t => t.cur .p == 0o101 && !t.flag .c && !t.flag .q)
      := by
  decide

theorem test_tra :
    runs ({ ({ base with iid := 0o14 } : State) with pid := 0o40000 } : State) 0o150005 (fun t =>
      t.cur .a == 3 && t.iid == 0 && t.pid == 0o40000) ∧
    runs ({ base with pvl := 3 } : State) 0o150004 (fun t => t.cur .a == 0o153632) := by
  decide

theorem test_trr :
    runs (base.setCur .a 0o177777) 0o150103 (fun t => t.pcrOf 0o17 == 0o3603) ∧
    runs (base.setCur .a 0o177777) 0o150101 (fun t => t.sts t.pil == 0o10377) := by
  decide

theorem test_mcl :
    runs ((base.setCur .a 0o100).setCurFlags 0o177) 0o150201 (fun t => t.curFlags == 0o77) := by
  decide

theorem test_mst :
    runs ({ ({ base.setCur .a 0o10 with pie := 0o10 } : State) with ioni := true } : State)
      0o150306 (fun t => t.pid == 0o10 && t.pil == 3 && t.pvl == 0 && t.reg 0 .p == 0o1001) := by
  decide

theorem test_opcom :
    runs base 0o150400 (fun t => t.runMode == .stop && t.cur .p == 0o1001) := by
  decide

theorem test_iof :
    runs ((({ base with poni := true } : State).setPte 0 0 0xE0000000).setPcr 0 0) 0o150401 (fun t
      => t.iid == 0o100 && t.cur .p == 0o1000) ∧
    runs ((({ base with poni := true } : State).setPte 0 0 0xE0000000).setPcr 0 2) 0o150401 (fun t
      => t.iid == 0 && t.cur .p == 0o1001) := by
  decide

theorem test_ion :
    runs ({ ({ base with pid := 2 } : State) with pie := 2 } : State) 0o150402 (fun t => t.pil == 1
      && t.pvl == 0 && t.reg 0 .p == 0o1001) := by
  decide

/-- From the instruction's rule; the spec gives no vector. -/
theorem test_pof :
    runs ((({ base with poni := true } : State).setPte 0 0 0xE0000000).setPcr 0 2) 0o150404 (fun t
      => !t.poni && t.cur .p == 0o1001) := by
  decide

/-- From the instruction's rule; the spec gives no vector. -/
theorem test_piof :
    runs ({ base with ioni := true } : State) 0o150405 (fun t => !t.ioni && !t.poni) := by
  decide

/-- From the instruction's rule; the spec gives no vector. -/
theorem test_sex :
    runs base 0o150406 (fun t => t.sexi) := by
  decide

/-- From the instruction's rule; the spec gives no vector. -/
theorem test_rex :
    runs ({ base with sexi := true } : State) 0o150407 (fun t => !t.sexi) := by
  decide

/-- From the instruction's rule; the spec gives no vector. -/
theorem test_pon :
    runs base 0o150410 (fun t => t.poni) := by
  decide

/-- From the instruction's rule; the spec gives no vector. -/
theorem test_pion :
    runs base 0o150412 (fun t => t.ioni && t.poni) := by
  decide

theorem test_exam :
    runs (put ((base.setCur .a 1).setCur .d 2) 0o200002 0o777) 0o150416 (fun t => t.cur .t ==
      0o777) := by
  decide

theorem test_depo :
    runs (((base.setCur .a 0o401).setCur .d 2).setCur .t 0o55) 0o150417 (fun t => t.phys 0o200002
      == 0o55) := by
  decide

theorem test_wait :
    runs ({ ({ ({ { base with pil := 0o12 }.setCur .p 0o1000 with pid := 0o2000 } : State) with pie
      := 0o2001 } : State) with ioni := true } : State) 0o151000 (fun t => t.pid == 0 && t.pil == 0
      && t.pvl == 0o12 && t.reg 0o12 .p == 0o1001) ∧
    runs base 0o151000 (fun t => t.runMode == .stop && t.cur .p == 0o1001) := by
  decide

theorem test_nlz :
    runs (((base.setCur .t 0o1234).setCur .d 0o4321).setCur .a 0o100000) 0o151420 (fun t => t.cur
      .t == 0o140020 && t.cur .a == 0o100000 && t.cur .d == 0 && !t.flag .z) := by
  decide

theorem test_dnz :
    runs (((base.setCur .t 0o140002).setCur .a 0o120000).setCur .d 0) 0o152360 (fun t => t.cur .t
      == 0 && t.cur .a == 0o177776 && t.cur .d == 0 && !t.flag .z) ∧
    runs (((base.setCur .t 0o140020).setCur .a 0o100000).setCur .d 0) 0o152360 (fun t => t.cur .t
      == 0 && t.cur .a == 0o100000 && t.cur .d == 0 && t.flag .z) := by
  decide

theorem test_srb :
    runs (((((((base.setCur .p 0o100).setCur .x 0o600).setCur .t 1).setCur .a 2).setCur .d
      3).setCur .l 4).setCur .b 5) 0o152402 (fun t => t.phys 0o600 == 0o101 && t.phys 0o601 ==
      0o600 && t.phys 0o602 == 1 && t.phys 0o603 == 2 && t.phys 0o604 == 3 && t.phys 0o605 == 4 &&
      t.phys 0o606 == 0o10000 && t.phys 0o607 == 5) := by
  decide

theorem test_lrb :
    runs (put (put (put (put (put (put (put (put ((base.setCur .p 0o100).setCur .x 0o600) 0o600
      0o700) 0o601 0o11) 0o602 0o12) 0o603 0o13) 0o604 0o14) 0o605 0o15) 0o606 0o177777) 0o607
      0o17) 0o152610 (fun t => t.reg 1 .p == 0o700 && t.reg 1 .x == 0o11 && t.reg 1 .t == 0o12 &&
      t.reg 1 .a == 0o13 && t.reg 1 .d == 0o14 && t.reg 1 .l == 0o15 && t.reg 1 .b == 0o17 &&
      t.flags 1 == 0o377 && t.cur .p == 0o101 && t.cur .x == 0o600) ∧
    runs (put (put (put (put (put (put (put (put ((base.setCur .p 0o100).setCur .x 0o600) 0o600
      0o700) 0o601 0o11) 0o602 0o12) 0o603 0o13) 0o604 0o14) 0o605 0o15) 0o606 0o177777) 0o607
      0o17) 0o152600 (fun t => t.cur .p == 0o101 && t.cur .x == 0o11 && t.cur .t == 0o12 && t.cur
      .a == 0o13 && t.cur .d == 0o14 && t.cur .l == 0o15 && t.cur .b == 0o17 && t.curFlags ==
      0o377) := by
  decide

theorem test_mon :
    runs ({ ({ ({ base with iie := 2 } : State) with pie := 0o40000 } : State) with ioni := true }
      : State) 0o153003 (fun t => t.iid == 2 && t.pid == 0o40000 && t.reg 0o16 .t == 3 && t.reg 0
      .p == 0o1001 && t.pil == 0o16 && t.pvl == 0) := by
  decide

theorem test_irw :
    runs (base.setCur .a 0o500) 0o153402 (fun t => t.cur .p == 0o1001) ∧
    runs (base.setCur .a 0o177777) 0o153410 (fun t => t.flags 1 == 0o377 && t.sts t.pil == 0o10000)
      := by
  decide

theorem test_irr :
    runs (({ base with pil := 0o16 }.setCur .p 0o1000).setFlags 3 0o105) 0o153630 (fun t => t.cur
      .a == 0o17105) := by
  decide

theorem test_sht :
    runs (base.setCur .t 0o100001) 0o154077 (fun t => t.cur .t == 0o140000 && t.flag .m) := by
  decide

theorem test_shd :
    runs (base.setCur .d 0o170001) 0o155204 (fun t => t.cur .d == 0o37 && t.flag .m) := by
  decide

theorem test_sha :
    runs ((base.setCur .a 0o100000).setCurFlags 0o200) 0o157401 (fun t => t.cur .a == 1 && t.flag
      .m) ∧
    runs (base.setCur .a 1) 0o157477 (fun t => t.cur .a == 0 && t.flag .m) := by
  decide

theorem test_sad :
    runs ((base.setCur .a 0o100000).setCur .d 1) 0o154677 (fun t => t.cur .a == 0o140000 && t.cur
      .d == 0 && t.flag .m) := by
  decide

theorem test_sab :
    runs base 0o170377 (fun t => t.cur .b == 0o177777) := by
  decide

theorem test_saa :
    runs base 0o170600 (fun t => t.cur .a == 0o177600) := by
  decide

theorem test_sat :
    runs base 0o171177 (fun t => t.cur .t == 0o177) := by
  decide

theorem test_sax :
    runs base 0o171775 (fun t => t.cur .x == 0o177775) := by
  decide

theorem test_aab :
    runs (base.setCur .b 0o100) 0o172002 (fun t => t.cur .b == 0o102 && !t.flag .c && !t.flag .q)
      := by
  decide

theorem test_aaa :
    runs (base.setCur .a 0o100000) 0o172600 (fun t => t.cur .a == 0o77600 && t.flag .c && t.flag .q
      && t.flag .o) := by
  decide

theorem test_aat :
    runs (base.setCur .t 5) 0o173376 (fun t => t.cur .t == 3 && t.flag .c) := by
  decide

theorem test_aax :
    runs (base.setCur .x 0o177777) 0o173401 (fun t => t.cur .x == 0 && t.flag .c && !t.flag .q) :=
      by
  decide

theorem test_bsetZro :
    runs (base.setCurFlags 0o100) 0o174060 (fun t => t.curFlags == 0) := by
  decide

theorem test_bsetOne :
    runs (base.setCur .a 0) 0o174375 (fun t => t.cur .a == 0o100000) ∧
    runs base 0o174340 (fun t => t.sts t.pil == 0o10000 && t.curFlags == 0) := by
  decide

theorem test_bsetBcm :
    runs (base.setCur .x 0) 0o174407 (fun t => t.cur .x == 1) := by
  decide

theorem test_bsetBac :
    runs ((base.setCurFlags 4).setCur .t 0) 0o174616 (fun t => t.cur .t == 2 && t.flag .k) := by
  decide

theorem test_bskpZro :
    runs (base.setCurFlags 0) 0o175060 (fun t => t.cur .p == 0o1002) := by
  decide

theorem test_bskpOne :
    runs base 0o175340 (fun t => t.cur .p == 0o1002) ∧
    runs ({ base with ioni := true } : State) 0o175370 (fun t => t.cur .p == 0o1002) := by
  decide

theorem test_bskpBcm :
    runs (base.setCur .a 1) 0o175405 (fun t => t.cur .p == 0o1002) := by
  decide

theorem test_bskpBac :
    runs (base.setCur .a 1) 0o175605 (fun t => t.cur .p == 0o1001) := by
  decide

theorem test_bstc :
    runs (base.setCur .a 0) 0o176005 (fun t => t.cur .a == 1 && t.flag .k) ∧
    runs base 0o176020 (fun t => t.flag .k) := by
  decide

theorem test_bsta :
    runs ((base.setCur .a 0).setCurFlags 4) 0o176205 (fun t => t.cur .a == 1 && !t.flag .k) ∧
    runs (base.setCurFlags 4) 0o176220 (fun t => !t.flag .k) := by
  decide

theorem test_bldc :
    runs base 0o176460 (fun t => t.flag .k) := by
  decide

theorem test_blda :
    runs (base.setCur .a 0o100000) 0o176775 (fun t => t.flag .k) := by
  decide

theorem test_banc :
    runs ((base.setCur .a 1).setCurFlags 4) 0o177005 (fun t => !t.flag .k) := by
  decide

theorem test_band :
    runs ((base.setCur .a 1).setCurFlags 4) 0o177205 (fun t => t.flag .k) := by
  decide

theorem test_borc :
    runs (base.setCur .a 0) 0o177405 (fun t => t.flag .k) := by
  decide

theorem test_bora :
    runs (base.setCur .a 1) 0o177605 (fun t => t.flag .k) := by
  decide

theorem test_illegal_word :
    runs ({ ({ ({ base with iie := 0o20 } : State) with pie := 0o40000 } : State) with ioni := true
      } : State) 0o160000 (fun t => t.iid == 0o20 && t.pid == 0o40000 && t.reg 0 .p == 0o1000 &&
      t.pil == 0o16) := by
  decide

/-! ### Witnesses: states and operands that meet the hypotheses of the obligations

One theorem for each obligation with hypotheses, one conjunct for each of its clauses; `witness_X`
      belongs
to `Obligations.X`. -/

/-- Page 2 all open, page 3 closed, X at the last word of page 2. -/
def edge : State := (paged 0xE0000000).setCur .x 0o5777

/-- As `edge`, X one word lower. -/
def edge2 : State := (paged 0xE0000000).setCur .x 0o5776

/-- Page 0 may be fetched and not read; page 2 has no permit. -/
def closed : State := ((paged 0).setPte 0 0 0x20000000).setCur .b 0o4000

/-- Page 2 may be read and not written. -/
def readOnly : State := paged 0x40000000

/-- Paging on, the current level in ring 3. -/
def ring3 : State := (paged 0xE0000000).setPcr 0 3

/-- PTM set, table 1 the alternate one: there page 2 may be fetched and is page 5; in table 0 it
      has no
permit. -/
def alternateTable : State := (((paged 0).setPcr 0 0o200).setFlag .ptm true).setPte 1 2 0x20000005

/-- Two words of memory installed. -/
def small : State := { base with physWords := 2 }

/-- R224 on operands that are not normalized: 1 - (16 >> 1) = -7 as a 32-bit value. -/
theorem test_fadd_unnormalized : fadd ⟨false, 5, 1⟩ ⟨true, 4, 16⟩ = (⟨false, 5, 0xFFFFFFF9⟩,
      .exact) := by
  decide

/-- R227 on operands that are not normalized: the product shifted by 3, the quotient by k = 2. -/
theorem test_fmul_fdiv_unnormalized :
    fmul ⟨false, 20000, 0x40000000⟩ ⟨true, 20000, 0x40000001⟩ =
      (⟨true, 23613, 0x80000002⟩, .exact) ∧
    fdiv ⟨false, 20000, 0x60000000⟩ ⟨false, 20000, 3⟩ = (⟨false, 16414, 0x80000000⟩, .exact) := by
      decide

/-- 20_memory.md R59: an access beyond the installed memory is refused, the last word is reached. -/
theorem test_beyond_physWords : small.memRead 2 true = .refused .beyondPhysWords ∧
    small.memRead 1 true = .ok 0 small ∧ small.physWrite 0o177777 1 = .refused .beyondPhysWords :=
  ⟨rfl, rfl, rfl⟩

/-- 00_scope.md R4(c), 20_memory.md R53: a loader's fetch reads through the table it asks for. -/
theorem test_loaderFetch_alternateTable :
    (∃ t, step { alternateTable with turns := [.env (.memFetch 0o4000 true)] } = .next t ∧
      t.pte 1 2 = 0x28000005 ∧ t.pgs = 0) ∧
    (∃ t, step { alternateTable with turns := [.env (.memFetch 0o4000 false)] } = .next t ∧
      t.pte 1 2 = 0x20000005 ∧ t.pgs = 0o140002) := ⟨⟨_, rfl, rfl, rfl⟩, ⟨_, rfl, rfl, rfl⟩⟩

/-- 70_reset_and_hazards.md R351: the start address is written before the start. -/
theorem test_setStartAddress :
    (∃ t, step { State.reset with turns := [.env (.setStartAddress 0o40)] } = .next t ∧
      t.cur .p = 0o40) ∧
    (∃ t, step { base with turns := [.env (.setStartAddress 0o40)] } = .next t ∧
      t.cur .p = 0o1000) := ⟨⟨_, rfl, rfl⟩, ⟨_, rfl, rfl⟩⟩

theorem witness_DecodeInvertsEncode : (Instr.lda .indP 1).wellFormed = true ∧
    (Instr.sad .lin (-32)).wellFormed = true ∧ (Instr.bora 15 none).wellFormed = true := by decide

theorem witness_EncodeInvertsDecode : decode 0o045001 = .ok (.lda .indP 1) ∧
    decode 0o154777 = .ok (.sad .plain (-1)) := by decide

theorem witness_IllegalWordsAreThoseOfNoRow : Claims.illegalWord 0o160000 = true ∧
    Claims.illegalWord 0o140133 = true ∧ Claims.illegalWord 0o150020 = true := by decide

theorem witness_IgnoredBitsHaveNoEffect : (0o154677 : Word) &&& 0o174000 = 0o154000 ∧
    (0o141660 : Word) &&& 0o177700 = 0o141600 ∧ (0o140650 : Word) &&& 0o177700 = 0o140600 ∧
    (0o142200 : Word) &&& 0o177700 = 0o142200 ∧ (0o142600 : Word) &&& 0o177700 = 0o142600 ∧
    (0o143277 : Word) &&& 0o177700 = 0o143200 ∧ (0o151377 : Word) &&& 0o177400 = 0o151000 ∧
    ((0o150020 : Word) &&& 0o177400 = 0o150000 ∧ (0o150020 : Word) &&& 0o60 ≠ 0) := by decide

theorem witness_UntranslatedAccess : (base.poni = false ∧ (0o177377 : Word) < base.shadowBase ∧
      (0o177377 : Word).toNat < base.physWords) ∧
    (base.poni = false ∧ (0o176777 : Word) < { base with sexi := true }.shadowBase) ∧
    (small.poni = false ∧ (1 : Word) < small.shadowBase ∧ (1 : Word).toNat < small.physWords) := by
  decide

theorem witness_TranslationChecksInOrder :
    (∀ e, (paged e).poni = true ∧ (0o4000 : Word) < (paged e).shadowBase) ∧
    (ring3.poni = true ∧ (0o177377 : Word) < ring3.shadowBase) ∧
    ((paged 0).poni = true ∧ (paged 0).ring ≠ 3) ∧
    (paged 0x1FFFFFFF).locate .read 0o4000 false = .fault .pageFault 0 2 ∧
    (paged 0xE1000000).locate .read 0o4000 true = .fault .ringViolation 0 2 ∧
    (paged 0xA0000000).locate .read 0o4000 false = .fault .protectionViolation 0 2 ∧
    (paged 0x40000005).locate .read 0o4001 false = .physical 0o12001 (some (0, 2)) ∧
    { paged 0x40003FFF with sexi := true }.locate .read 0o4000 false =
      .physical 0o77776000 (some (0, 2)) := by
  refine ⟨fun e => ⟨rfl, ?_⟩, ?_⟩
  · show (0o4000 : Word) < 0o177400; decide
  · decide

theorem witness_SuccessfulAccess :
    (paged 0x40000005).locate .read 0o4000 true = .physical 0o12000 (some (0, 2)) ∧
    (paged 0x20000005).locate .fetch 0o4000 false = .physical 0o12000 (some (0, 2)) ∧
    alternateTable.locate .fetch 0o4000 true = .physical 0o12000 (some (1, 2)) ∧
    (paged 0x80000005).locate .write 0o4000 true = .physical 0o12000 (some (0, 2)) ∧
    (0o12000 : PhysAddr).toNat < base.physWords ∧
    small.locate .read 2 true = .physical 2 none ∧ small.locate .fetch 2 false = .physical 2 none ∧
    small.locate .write 2 true = .physical 2 none ∧ small.physWords ≤ (2 : PhysAddr).toNat := by
      decide

theorem witness_FaultRecordsSyndrome :
    (paged 0).locate .read 0o4000 true = .fault .pageFault 0 2 ∧
    readOnly.locate .write 0o4000 true = .fault .protectionViolation 0 2 ∧
    (paged 0xE3000000).locate .fetch 0o4000 false = .fault .ringViolation 0 2 ∧
    (paged 0xE3000000).locate .fetch 0o4000 true = .fault .ringViolation 0 2 := by decide

theorem witness_ShadowWindow : (base.poni = false ∧ base.sexi = false) ∧
    (ring3.ring = 3 ∧ { ring3 with sexi := true }.sexi = true) := by decide

theorem witness_EffectiveAddressModes :
    base.memRead (base.cur .p + (0x01 : BitVec 8).signExtend 16) false = .ok 0 base ∧
    base.memRead (base.cur .b + (0x80 : BitVec 8).signExtend 16) true = .ok 0 base ∧
    (∃ t, closed.memRead (closed.cur .p + (0x01 : BitVec 8).signExtend 16) false = .abandoned t) ∧
    (∃ t, closed.memRead (closed.cur .b + (0x01 : BitVec 8).signExtend 16) true = .abandoned t) :=
  ⟨rfl, rfl, ⟨_, rfl⟩, ⟨_, rfl⟩⟩

theorem witness_StoreThenLoadRoundTrips :
    let s := (paged 0xC0000005).setCur .b 0o4000
    let addr := s.cur .b + (3 : BitVec 8).signExtend 16
    let e := s.pte (s.selectTable true) (addr.extractLsb' 10 6)
    (s.poni = true ∧ e.getLsbD 31 = true ∧ e.getLsbD 30 = true ∧
      (e.extractLsb' 24 2).toNat ≤ s.ring.toNat ∧ s.isShadow addr = false) ∧
    (∀ pa entry, s.locate .write addr true = .physical pa entry → pa.toNat < s.physWords) :=
  ⟨by decide, fun pa _ _ => pa.isLt⟩

theorem witness_RaiseInterrupt : (0o20 ||| (2 : Word)) &&& 0o20 ≠ 0 ∧ (2 : Word) &&& 0o20 = 0 ∧
    (13 : Level) ≠ 14 ∧ ({ base with iie := 0o20 }.iid ||| 0o20) &&& { base with iie := 0o20 }.iie
      ≠ 0 ∧
    (base.iid ||| 0o20) &&& base.iie = 0 := by decide

theorem witness_PkIsHighestPendingEnabled : base.pid &&& base.pie = 0 ∧
    { base with pid := 0o2040, pie := 0o440 }.pid &&& { base with pid := 0o2040, pie := 0o440 }.pie
      ≠ 0 ∧
    { base with pid := 0o2040, pie := 0o440 }.pk = 5 := by decide

theorem witness_LevelSwitch :
    (({ base with ioni := true, pid := 2, pie := 2 } : State).ioni = true ∧
      ({ base with ioni := true, pid := 2, pie := 2 } : State).pk ≠ base.pil) ∧
    base.ioni = false ∧ base.pk = base.pil := by decide

theorem witness_StepRunsDecodedInstruction : base.cpusTurn ∧
    ({ base with turns := [.cpu, .cpu] } : State).cpusTurn ∧ base.runMode = .run ∧
    ({ base with turns := [.cpu] } : State).turnTaken.memFetch (base.cur .p) = .ok 0 base ∧
    small.memFetch (small.cur .p) = .refused .beyondPhysWords ∧
    base.memFetch (base.cur .p) = .ok 0 base ∧ decode 0 = .ok (.stz .pRel 0) ∧
    (put base 0o1000 0o160000).memFetch (base.cur .p) = .ok 0o160000 (put base 0o1000 0o160000) ∧
    decode 0o160000 = .error .unassigned ∧
    (∃ t, { base with poni := true }.memFetch (base.cur .p) = .abandoned t) :=
  ⟨.inl rfl, .inr rfl, rfl, rfl, rfl, rfl, rfl, rfl, rfl, ⟨_, rfl⟩⟩

theorem witness_PrivilegedInstructionTraps : privilegedInstr .iof = true ∧ (paged 0).poni = true ∧
    (paged 0).ring.toNat < 2 ∧ ((paged 0).setPcr 0 1).ring.toNat < 2 := by decide

theorem witness_UnimplementedHalts : unimplementedInstr .movb = true ∧
    { base with runMode := .shutdown }.runMode = .shutdown := by decide

theorem witness_RunModes : State.reset.cpusTurn ∧ State.reset.runMode = .stop ∧
    base.runMode = .run ∧ { base with runMode := .step }.runMode = .step ∧
    (∃ t, cpuStep { base with runMode := .step } = .next t) :=
  ⟨.inl rfl, rfl, rfl, rfl, ⟨_, rfl⟩⟩

/-- A machine that runs, and one that is stopped, with any action as the next turn. -/
theorem witness_DeviceActionsAreSteps : base.runMode ≠ .shutdown ∧ State.reset.runMode = .stop ∧
    base.runMode ≠ .stop ∧ (10 : Level) ≠ 14 ∧
    (∀ a, ({ base with turns := [.env a] } : State).turns = .env a :: []) ∧
    (1 : PhysAddr).toNat < small.physWords ∧ small.physWords ≤ (2 : PhysAddr).toNat :=
  ⟨by decide, rfl, by decide, by decide, fun _ => rfl, by decide, by decide⟩

theorem witness_LevelChangesOnlyBySwitch : base.cpusTurn ∧ (∃ t, step base = .next t) ∧
    (∃ t, step { base with ioni := true, pid := 2, pie := 2 } = .next t ∧ t.pil = 1) :=
  ⟨.inl rfl, ⟨_, rfl⟩, ⟨_, rfl, rfl⟩⟩

theorem witness_OnlyUnimplementedShutsDown : (put base 0o1000 0o140131).cpusTurn ∧
    (∃ t, step (put base 0o1000 0o140131) = .next t ∧ t.runMode = .shutdown) :=
  ⟨.inl rfl, ⟨_, rfl, rfl⟩⟩

theorem witness_StoresWriteTheirRegisters :
    (∃ t, base.effectiveAddress .xIdx 0 = .ok (0, true) base ∧ base.memWrite 0 true 0 = .ok () t ∧
      base.memWrite 0 true (base.cur .a) = .ok () t ∧ base.memWrite 0 true (base.cur .t) = .ok () t
      ∧
      base.memWrite 0 true (base.cur .x) = .ok () t) ∧
    (∃ u v t, base.memWrite 0 true (base.cur .a) = .ok () u ∧
      u.memWrite (0 + 1) true (base.cur .d) = .ok () v ∧
      v.memWrite (0 + 2) true (base.cur .d) = .ok () t) ∧
    (∃ u t, edge.effectiveAddress .xIdx 0 = .ok (0o5777, true) edge ∧
      edge.memWrite 0o5777 true (edge.cur .a) = .ok () u ∧
      u.memWrite (0o5777 + 1) true (edge.cur .d) = .abandoned t) ∧
    (∃ u v t, edge2.effectiveAddress .xIdx 0 = .ok (0o5776, true) edge2 ∧
      edge2.memWrite 0o5776 true (edge2.cur .t) = .ok () u ∧
      u.memWrite (0o5776 + 1) true (edge2.cur .a) = .ok () v ∧
      v.memWrite (0o5776 + 2) true (edge2.cur .d) = .abandoned t) :=
  ⟨⟨_, rfl, rfl, rfl, rfl, rfl⟩, ⟨_, _, _, rfl, rfl, rfl⟩, ⟨_, _, rfl, rfl, rfl⟩,
    ⟨_, _, _, rfl, rfl, rfl, rfl⟩⟩

theorem witness_LoadsFillTheirRegisters :
    (base.effectiveAddress .xIdx 0 = .ok (0, true) base ∧ base.memRead 0 true = .ok 0 base ∧
      base.memRead (0 + 1) true = .ok 0 base ∧ base.memRead (0 + 2) true = .ok 0 base) ∧
    (∃ u t, edge.effectiveAddress .xIdx 0 = .ok (0o5777, true) edge ∧
      edge.memRead 0o5777 true = .ok 0 u ∧ u.memRead (0o5777 + 1) true = .abandoned t) ∧
    (∃ u v t, edge2.effectiveAddress .xIdx 0 = .ok (0o5776, true) edge2 ∧
      edge2.memRead 0o5776 true = .ok 0 u ∧ u.memRead (0o5776 + 1) true = .ok 0 v ∧
      v.memRead (0o5776 + 2) true = .abandoned t) :=
  ⟨⟨rfl, rfl, rfl, rfl⟩, ⟨_, _, rfl, rfl, rfl⟩, ⟨_, _, _, rfl, rfl, rfl, rfl⟩⟩

theorem witness_ArithmeticAndLogicOnA : base.effectiveAddress .bRel 0x7F = .ok (0o177, true) base ∧
    base.memRead 0o177 true = .ok 0 base := ⟨rfl, rfl⟩

theorem witness_AdderWritesCarryAndOverflow : (.ptm : Flag) ≠ .c ∧ (.ptm : Flag) ≠ .q ∧
    (.ptm : Flag) ≠ .o := by decide

theorem witness_MinIncrementsAndSkips :
    (∃ t, base.effectiveAddress .bRel 0 = .ok (0, true) base ∧ base.memRead 0 true = .ok 0 base ∧
      base.memWrite 0 true (0 + 1) = .ok () t) ∧
    (∃ t, (put base 0 0o177777).memRead 0 true = .ok 0o177777 (put base 0 0o177777) ∧
      (put base 0 0o177777).memWrite 0 true (0o177777 + 1) = .ok () t) ∧
    (∃ u t, readOnly.effectiveAddress .xIdx 0 = .ok (0o4000, true) readOnly ∧
      readOnly.memRead 0o4000 true = .ok 0 u ∧ u.memWrite 0o4000 true (0 + 1) = .abandoned t) ∧
    (∃ t, (paged 0).effectiveAddress .xIdx 0 = .ok (0o4000, true) (paged 0) ∧
      (paged 0).memRead 0o4000 true = .abandoned t) :=
  ⟨⟨_, rfl, rfl, rfl⟩, ⟨_, rfl, rfl⟩, ⟨_, _, rfl, rfl, rfl⟩, ⟨_, rfl, rfl⟩⟩

theorem witness_FaultedOperandAbandons :
    (∃ t, closed.effectiveAddress .indB 0 = .abandoned t) ∧
    (∃ t, (paged 0).readOperand .xIdx 0 = .abandoned t) ∧
    (∃ t, (paged 0).readOperand .bxIdx 0 = .abandoned t) ∧
    (∃ t, readOnly.writeOperand .xIdx 0 0 = .abandoned t) ∧
    (∃ t, readOnly.writeOperand .xIdx 0 (readOnly.cur .x) = .abandoned t) :=
  ⟨⟨_, rfl⟩, ⟨_, rfl⟩, ⟨_, rfl⟩, ⟨_, rfl⟩, ⟨_, rfl⟩⟩

theorem witness_MultiplyInstructions : base.effectiveAddress .bRel 0 = .ok (0, true) base ∧
    (put base 0 5).memRead 0 true = .ok 5 (put base 0 5) := ⟨rfl, rfl⟩

theorem witness_DivideTruncates : ((base.setCur .t 0o177776).fieldValue (some .t)).toInt ≠ 0 ∧
    (base.fieldValue none).toInt = 0 := by decide

theorem witness_ByteAndSetInstructions :
    (base.memRead (base.cur .t + (base.cur .x >>> 1)) true = .ok 0 base ∧
      base.memRead (base.cur .x) true = .ok 0 base) ∧
    (∃ t, base.memWriteByte (base.cur .t + (base.cur .x >>> 1)) true ((base.cur .x).getLsbD 0)
      ((base.cur .a).extractLsb' 0 8) = .ok () t) ∧
    (∃ t, (base.setCur .t 0).memWrite (base.cur .x) true 0o177777 = .ok () t) ∧
    (∃ u t, readOnly.memRead (readOnly.cur .x) true = .ok 0 u ∧
      (u.setCur .t 0).memWrite (readOnly.cur .x) true 0o177777 = .abandoned t) ∧
    (∃ t, (paged 0).memRead ((paged 0).cur .x) true = .abandoned t) ∧
    (∃ t, ((paged 0).setCur .t 0o2000).memRead (0o2000 + ((paged 0).cur .x >>> 1)) true =
      .abandoned t) ∧
    (∃ t, (readOnly.setCur .t 0o2000).memWriteByte (0o2000 + (readOnly.cur .x >>> 1)) true
      ((readOnly.cur .x).getLsbD 0) ((readOnly.cur .a).extractLsb' 0 8) = .abandoned t) :=
  ⟨⟨rfl, rfl⟩, ⟨_, rfl⟩, ⟨_, rfl⟩, ⟨_, _, rfl, rfl⟩, ⟨_, rfl⟩, ⟨_, rfl⟩, ⟨_, rfl⟩⟩

theorem witness_Jumps : base.effectiveAddress .bxIdx 0x80 = .ok (0o177600, true) base ∧
    (∃ t, closed.effectiveAddress .indPX 0 = .abandoned t) := ⟨rfl, ⟨_, rfl⟩⟩

theorem witness_ExecuteRegister :
    ((base.setCur .a 0o140660).fieldValue (some .a)) &&& 0o177700 = 0o140600 ∧
    ((base.setCur .a 0o124005).fieldValue (some .a)) &&& 0o177700 ≠ 0o140600 ∧
    decode ((base.setCur .a 0o124005).fieldValue (some .a)) = .ok (.jmp .pRel 5) ∧
    ((base.setCur .a 0o160000).fieldValue (some .a)) &&& 0o177700 ≠ 0o140600 ∧
    decode ((base.setCur .a 0o160000).fieldValue (some .a)) = .error .unassigned ∧
    (base.setCur .a 0o170777).fieldValue (some .a) = (0o170400 : Word) ||| (0xFF : BitVec
      8).zeroExtend 16 := by
  decide

theorem witness_ShiftEngineClosedForms : (16 = 16 ∨ 16 = 32) ∧ (0 < 1 ∧ 1 ≤ 32) ∧
    (0 < 32 ∧ 32 ≤ 32) := by decide

theorem witness_FloatInstructions :
    (base.effectiveAddress .bRel 0 = .ok (0, true) base ∧ base.memRead 0 true = .ok 0 base ∧
      base.memRead (0 + 1) true = .ok 0 base ∧ base.memRead (0 + 2) true = .ok 0 base ∧
      (unpack 0 0 0).man = 0) ∧
    (unpack 0o40001 0o100000 0).man ≠ 0 ∧
    (∃ u t, edge.effectiveAddress .xIdx 0 = .ok (0o5777, true) edge ∧
      edge.memRead 0o5777 true = .ok 0 u ∧ u.memRead (0o5777 + 1) true = .abandoned t) ∧
    (∃ u v t, edge2.effectiveAddress .xIdx 0 = .ok (0o5776, true) edge2 ∧
      edge2.memRead 0o5776 true = .ok 0 u ∧ u.memRead (0o5776 + 1) true = .ok 0 v ∧
      v.memRead (0o5776 + 2) true = .abandoned t) :=
  ⟨⟨rfl, rfl, rfl, rfl, rfl⟩, by decide, ⟨_, _, rfl, rfl, rfl⟩, ⟨_, _, _, rfl, rfl, rfl, rfl⟩⟩

theorem witness_IntegerFloatConversion : (base.cur .a).toInt = 0 ∧
    ((base.setCur .a 0o100000).cur .a).toInt ≠ 0 ∧
    (unpack (base.cur .t) (base.cur .a) (base.cur .d)).man = 0 := by decide

/-- Operands for each clause: the last pair is not normalized and its difference is negative. -/
theorem witness_FloatAdditionProperties :
    let a : Flt := { sign := false, exp := 0o40001, man := 0x80000000 }
    let b : Flt := { sign := true, exp := 0o37741, man := 1 }
    let c : Flt := { sign := false, exp := 0o40000, man := 0xC0000001 }
    let n : Flt := { sign := false, exp := 5, man := 1 }
    let m : Flt := { sign := true, exp := 4, man := 16 }
    a.man.getLsbD 31 = true ∧ Flt.zero.man = 0 ∧ b.man ≠ 0 ∧ b.exp.toNat + 32 ≤ a.exp.toNat ∧
      c.exp < a.exp ∧ a.sign = c.sign ∧ a.man.toNat + c.man.toNat / 2 ||| 1 < 2 ^ 32 ∧
      2 ^ 32 ≤ (c.man.toNat + c.man.toNat ||| 0) ∧ a.sign ≠ b.sign ∧
      m.exp < n.exp ∧ n.man.toNat < m.man.toNat / 2 := by
  decide

theorem witness_FloatProductAndQuotientTruncate :
    let a : Flt := { sign := false, exp := 0o40001, man := 0x80000000 }
    let b : Flt := { sign := true, exp := 0o40001, man := 0xFFFFFFFF }
    let c : Flt := { sign := true, exp := 0, man := 3 }
    Flt.zero.man = 0 ∧ b.man ≠ 0 ∧ c.man ≠ 0 ∧
      (2 ^ 63 ≤ 9 * 2 ^ 60 ∧ 9 * 2 ^ 60 < 2 ^ 64) ∧ c.man.toNat * c.man.toNat = 9 ∧
      (2 ^ 31 * b.man.toNat ≤ c.man.toNat * 2 ^ 62 ∧ c.man.toNat * 2 ^ 62 < 2 ^ 32 * b.man.toNat) ∧
      (2 ^ 31 * c.man.toNat ≤ b.man.toNat * 2 ^ 1 ∧ b.man.toNat * 2 ^ 1 < 2 ^ 32 * c.man.toNat) ∧
    a.man.getLsbD 31 = true ∧ b.man.getLsbD 31 = true ∧ 2 ^ 63 ≤ b.man.toNat * b.man.toNat ∧
      a.man.toNat * a.man.toNat < 2 ^ 63 ∧ a.man ≤ b.man ∧ a.man < b.man := by decide

/-- For InternalRegisters, ModeSwitches, OtherLevelsRegisters, InputOutput and
PhysicalMemoryInstructions: paging off, or ring 2 or 3. -/
theorem witness_mayRunPrivileged : base.mayRunPrivileged ∧ ring3.mayRunPrivileged ∧
    (ring3.setPcr 0 2).mayRunPrivileged := ⟨Or.inl rfl, Or.inr (by decide), Or.inr (by decide)⟩

/-- The installed and the absent words of PhysicalMemoryInstructions. -/
theorem witness_PhysicalMemoryInstructions : (1 : PhysAddr).toNat < base.physWords ∧
    small.mayRunPrivileged ∧ (0 : PhysAddr).toNat < small.physWords ∧
    (0 + 1 : PhysAddr).toNat < small.physWords ∧ small.physWords ≤ (1 + 1 : PhysAddr).toNat ∧
    small.physWords ≤ (2 : PhysAddr).toNat := ⟨by decide, .inl rfl, by decide, by decide, by
      decide, by decide⟩

theorem witness_InternalRegisters : base.iid = 0 ∧ { base with iid := 0o14 }.iid ≠ 0 ∧
    (0o12 : BitVec 4) ∈ [(0o0 : BitVec 4), 0o2, 0o10, 0o11, 0o12, 0o13, 0o15, 0o16, 0o17] ∧
    (0o4 : BitVec 4) ∉ [(0o1 : BitVec 4), 0o3, 0o5, 0o6, 0o7] ∧
    (0o3 : BitVec 4) ∉ [(0o1 : BitVec 4), 0o6, 0o7] := by decide

theorem witness_WaitAndMonitorCall : base.ioni = false ∧ { base with ioni := true }.ioni = true :=
      by
  decide

theorem witness_IdentTakesOldestEntry :
    ((0o143600 : Word) &&& 0o177700 = 0o143600 ∧
      (0o143600 : Word) ∉ [(0o143604 : Word), 0o143611, 0o143622, 0o143643]) ∧
    ({ base with identChain := [⟨12, 5, 1⟩, ⟨10, 7, 2⟩, ⟨10, 8, 3⟩] } : State).identChain =
      [⟨12, 5, 1⟩] ++ ⟨10, 7, 2⟩ :: [⟨10, 8, 3⟩] ∧
    (∀ x ∈ [(⟨12, 5, 1⟩ : IdentEntry)], x.level ≠ 10) ∧ (∀ x ∈ base.identChain, x.level ≠ 10) := by
  decide

theorem witness_OtherLevelsRegisters :
    let words : List Word := [0, 1, 2, 3, 4, 5, 6, 7]
    base.memReadList true words = .ok [0, 0, 0, 0, 0, 0, 0, 0] base ∧
    (∃ t, (edge.setPcr 0 2).memReadList true [0o5777, 0o6000] = .abandoned t) ∧
    (∃ t, base.memWriteList true (words.zip (base.blockValues 0)) = .ok () t) ∧
    (∃ t, (edge.setPcr 0 2).memWriteList true
      ([0o5777, 0o6000].zip ((edge.setPcr 0 2).blockValues 0)) = .abandoned t) ∧
    (Reg.p = .p ∧ base.pil = base.pil) ∧ ¬(Reg.p = .p ∧ (1 : Level) = base.pil) :=
  ⟨rfl, ⟨_, rfl⟩, ⟨_, rfl⟩, ⟨_, rfl⟩, ⟨rfl, rfl⟩, by decide⟩

/-- For RegisterFrame, SystemStateFrame and MemoryAndTableFrame: an instruction fetched and one
      executed by
EXR, each giving a next state. -/
theorem witness_frames :
    (base.executed (.sta .bRel 0) = some (.sta .bRel 0) ∧ ∃ t, exec (.sta .bRel 0) base = .next t) ∧
    ((base.setCur .a 0o170401).executed (.exr (some .a)) = some (.saa 1) ∧
      ∃ t, exec (.exr (some .a)) (base.setCur .a 0o170401) = .next t) ∧
    Part.memory ∉ partsWritten (.saa 1) ∧ ((paged 0).poni = true ∧ (paged 0).ring ≠ 3) :=
  ⟨⟨rfl, ⟨_, rfl⟩⟩, ⟨rfl, ⟨_, rfl⟩⟩, by decide, by decide⟩

theorem witness_StepKeepsGood : base.Good ∧ ∃ t, step base = .next t :=
  ⟨⟨by decide, by decide, by decide⟩, ⟨_, rfl⟩⟩

theorem witness_UnprivilegedStepIsConfined : (paged 0).cpusTurn ∧ (paged 0).unprivileged ∧
    ∃ t, step (paged 0) = .next t := ⟨.inl rfl, ⟨rfl, by decide⟩, ⟨_, rfl⟩⟩

/-- A store in ring 0 that changes a byte of page 2. -/
theorem witness_UnprivilegedStoresStayInWritablePages :
    let s := (put (paged 0xC0000005) 0o1000 0o006000).setCur .a 1
    s.cpusTurn ∧ s.unprivileged ∧
      ∃ t, step s = .next t ∧ t.mem.readByte (2 * 0o12000 + 1) ≠ s.mem.readByte (2 * 0o12000 + 1) :=
  ⟨.inl rfl, ⟨rfl, by decide⟩, ⟨_, rfl, by decide⟩⟩

end Sys2Proof.Tests
end

section
/-! The invariant of the machine (10_state.md R19, R20, R24) under the operations that touch what it
speaks of: memory, the page-control registers and PGS. -/

namespace Sys2Proof.Machine

variable {s t : State}

/-! ### The parts the invariant speaks of -/

/-- The invariant depends on memory, the page-control registers and PGS only. -/
theorem State.Good.congr (g : s.Good) (memory : t.mem = s.mem) (pageControl : t.pcr = s.pcr)
    (syndrome : t.pgs = s.pgs) : t.Good := by
  obtain ⟨m, p, y⟩ := g
  refine ⟨memory ▸ m, fun l => ?_, syndrome ▸ y⟩
  have same : t.pcrOf l = s.pcrOf l := by unfold State.pcrOf; simp only [pageControl]
  rw [same]
  exact p l

/-- A change that leaves memory, the page-control registers and PGS alone keeps the invariant. -/
theorem OnlyParts.good {parts : List Part} (o : OnlyParts parts s t)
    (w : ∀ part ∈ [Part.memory, .pcr, .pgs], part ∉ parts) (g : s.Good) : t.Good :=
  g.congr (o .memory (w _ (by decide))) (o .pcr (w _ (by decide))) (o .pgs (w _ (by decide)))

/-! ### Each part written -/

/-- The syndrome leaves bits 13:8 of PGS at 0 (10_state.md R20). -/
theorem syndrome_zeroBits (kind : AccessKind) (c : MmuFault) (t : BitVec 2) (vpn : BitVec 6) :
    syndrome kind c t vpn &&& pgsZeroBits = 0 := by
  apply BitVec.eq_of_getLsbD_eq
  intro i hi
  simp only [syndrome, pgsZeroBits, BitVec.getLsbD_and, BitVec.getLsbD_append]
  interval_cases i <;> simp

/-- A word masked to the fields of a page-control register has no other bit (46_system.md R254). -/
theorem masked_pcrMask (v : Word) : v &&& pcrMask &&& ~~~pcrMask = 0 := by
  rw [BitVec.and_assoc, BitVec.and_not_self]
  exact BitVec.and_zero

theorem State.Good.setPcr (g : s.Good) (l : Level) (v : Word) : (s.setPcr l (v &&& pcrMask)).Good := by
  obtain ⟨m, p, y⟩ := g
  refine ⟨m, fun k => ?_, y⟩
  rw [State.pcrOf_setPcr]
  split
  · exact masked_pcrMask v
  · exact p k

theorem State.Good.raiseInt (g : s.Good) (l : Level) (mask : Word) : (s.raiseInt l mask).Good :=
  (s.raiseInt_onlyParts l mask).good (by decide) g

/-- A fault writes a syndrome to PGS (20_memory.md R56). -/
theorem State.Good.mmuFault (g : s.Good) (kind : AccessKind) (c : MmuFault) (t : BitVec 2)
    (vpn : BitVec 6) : (s.mmuFault kind c t vpn).Good :=
  State.Good.raiseInt (s := { s with pgs := Sys2Proof.Machine.syndrome kind c t vpn })
    ⟨g.memory, g.pageControl, syndrome_zeroBits kind c t vpn⟩ 14 c.toCause.mask

/-- Storing a datum keeps the canonical form of memory. -/
theorem Memory.wf_store (m : Memory) (pa : PhysAddr) (datum : Datum) (w : m.wf = true) :
    (m.store pa datum).wf = true := by
  cases datum with
  | word v => exact m.wf_writeWord pa v w
  | byte sel v => exact m.wf_writeSelected pa sel v w

theorem State.Good.setMem (g : s.Good) {m : Memory} (w : m.wf = true) : { s with mem := m }.Good :=
  ⟨w, g.pageControl, g.syndrome⟩

/-- Marker bits lie in the page tables. -/
theorem ReadStep.good (h : ReadStep s t) (g : s.Good) : t.Good := by
  obtain ⟨_, rfl⟩ := h
  exact g.congr rfl rfl rfl

/-! ### Accesses -/

/-- Every state an access reaches, completed or abandoned, satisfies the condition. -/
def Access.Reaches {α : Type} (x : Access α) (R : State → Prop) : Prop := x.Post (fun _ => R) R

/-- A read or fetch keeps the invariant, also where it faults. -/
theorem State.readAt_good (s : State) (kind : AccessKind) (loc : Location) :
    (s.readAt kind loc).Reaches fun t => s.Good → t.Good := by
  cases loc with
  | shadow t i view => exact id
  | physical pa e =>
    simp only [State.readAt]
    split
    · exact (s.mark_readStep kind e).good
    · trivial
  | fault c t vpn => exact fun g => g.mmuFault kind c t vpn

/-- A write keeps the invariant, also where it faults. -/
theorem State.writeAt_good (s : State) (datum : Datum) (loc : Location) :
    (s.writeAt datum loc).Reaches fun t => s.Good → t.Good := by
  cases loc with
  | shadow t i view => exact fun g => g.congr rfl rfl rfl
  | physical pa e =>
    simp only [State.writeAt]
    split
    · intro g
      have marked := (s.mark_readStep .write e).good g
      exact marked.setMem (Memory.wf_store _ pa datum marked.memory)
    · trivial
  | fault c t vpn => exact fun g => g.mmuFault .write c t vpn

/-- The invariant after an access made for a device or a loader. -/
theorem Access.ends_alone {α : Type} {x : Access α} {R : State → Prop} (h : x.Reaches R) :
    Ends x.alone R := Access.ends_andThen h (fun _ _ r => r) fun _ r => r

end Sys2Proof.Machine
end

section
/-! What every instruction keeps: a frame of registers, flags and parts, and the invariant, composed
along a meaning from the operations it makes. -/

namespace Sys2Proof.Machine

/-- A change within a frame that keeps the invariant. -/
structure Conforms (regs : List Reg) (flags : List Flag) (levels : List Level) (parts : List Part)
    (s t : State) : Prop where
  framed : Framed regs flags levels parts s t
  good : s.Good → t.Good

namespace Conforms

variable {D : List Reg} {F : List Flag} {L : List Level} {P : List Part} {s t u : State}

theorem refl : Conforms D F L P s s := ⟨.refl, id⟩

theorem trans (h : Conforms D F L P s t) (k : Conforms D F L P t u) : Conforms D F L P s u :=
  ⟨h.framed.trans k.framed, k.good ∘ h.good⟩

/-! ### Registers and flags -/

theorem setCur (h : Conforms D F L P s t) (r : Reg) (v : Word) (w : r = .p ∨ r ∈ D) :
    Conforms D F L P s (t.setCur r v) :=
  ⟨h.framed.setCur r v w, fun g => (h.good g).congr rfl rfl rfl⟩

/-- A destination of the instruction written. -/
theorem setDest (h : Conforms D F L P s t) {r : Reg} (v : Word) (w : r ∈ D) :
    Conforms D F L P s (t.setCur r v) := h.setCur r v (.inr w)

theorem jump (h : Conforms D F L P s t) (v : Word) : Conforms D F L P s (t.jump v) :=
  h.setCur .p v (.inl rfl)

theorem next (h : Conforms D F L P s t) : Conforms D F L P s t.next := h.jump _

theorem skipIf (h : Conforms D F L P s t) (c : Bool) : Conforms D F L P s (t.skipIf c) := by
  cases c
  · exact h.next
  · exact h.jump _

theorem jumpIf (h : Conforms D F L P s t) (c : Bool) (d : BitVec 8) :
    Conforms D F L P s (t.jumpIf c d) := by
  cases c
  · exact h.next
  · exact h.jump _

theorem setCurFlags (h : Conforms D F L P s t) (f : BitVec 8)
    (w : ∀ g, g ∉ F → flagOf f g = flagOf t.curFlags g) : Conforms D F L P s (t.setCurFlags f) :=
  ⟨h.framed.setCurFlags f w, fun g => (h.good g).congr rfl rfl rfl⟩

theorem setFlag (h : Conforms D F L P s t) {g : Flag} (v : Bool) (w : g ∈ F) :
    Conforms D F L P s (t.setFlag g v) :=
  ⟨h.framed.setFlag g v w, fun good => (h.good good).congr rfl rfl rfl⟩

theorem setReg (h : Conforms D F L P s t) {l : Level} {r : Reg} (v : Word) (w : l ∈ L)
    (c : l = s.pil → r = .p ∨ r ∈ D) : Conforms D F L P s (t.setReg l r v) :=
  ⟨h.framed.setReg l r v w c, fun g => (h.good g).congr rfl rfl rfl⟩

theorem setFlags (h : Conforms D F L P s t) {l : Level} (f : BitVec 8) (w : l ∈ L)
    (c : l = s.pil → ∀ g, g ∈ F) : Conforms D F L P s (t.setFlags l f) :=
  ⟨h.framed.setFlags l f w c, fun g => (h.good g).congr rfl rfl rfl⟩

/-- The adder writes C, Q and O (42_register_ops.md R150). -/
theorem addFlags (h : Conforms D F L P s t) (a b : Word) (c : Bool) (w : [Flag.c, .q, .o] ⊆ F) :
    Conforms D F L P s (t.addFlags a b c) :=
  ⟨h.framed.addFlags a b c w, fun g => (h.good g).congr rfl rfl rfl⟩

theorem addTo (h : Conforms D F L P s t) {r : Reg} (b : Word) (c : Bool) (w : r ∈ D)
    (f : [Flag.c, .q, .o] ⊆ F) : Conforms D F L P s (t.addTo r b c) := (h.addFlags _ b c f).setDest _ w

/-- A multiply writes Q and O (44_muldiv_byte.md R200, R201). -/
theorem overflowFlags (h : Conforms D F L P s t) (o : Bool) (w : [Flag.q, .o] ⊆ F) :
    Conforms D F L P s (t.overflowFlags o) := by
  refine h.setCurFlags _ fun g n => ?_
  have notQ : g ≠ .q := by rintro rfl; exact n (w (by decide))
  have notO : g ≠ .o := by rintro rfl; exact n (w (by decide))
  simp [Sys2Proof.Machine.overflowFlags, flagOf_withFlag, notQ, notO]

theorem reportZ (h : Conforms D F L P s t) (c : Bool) (w : Flag.z ∈ F) :
    Conforms D F L P s (t.reportZ c) := by
  cases c
  · exact h
  · exact h.setFlag true w

/-- A register operation ends with its result in the destination field (42_register_ops.md R151). -/
theorem roFinish (h : Conforms D F L P s t) {dr : RegField} (v : Word) (w : dr.toList ⊆ D) :
    Conforms D F L P s (t.roFinish dr v) := by
  cases dr with
  | none => exact h.next
  | some r =>
    have dest : r ∈ D := w (by simp)
    cases r
    case p => exact h.jump v
    all_goals exact (h.setDest v dest).next

/-- The operand bit of a bit instruction, in a register or in the flags (42_register_ops.md R170). -/
theorem writeBit (h : Conforms D F L P s t) {bn : Nat} {dr : RegField} (v : Bool)
    (w : dr.toList ⊆ D) (f : bitFlags bn dr ⊆ F) : Conforms D F L P s (t.writeBit bn dr v) := by
  cases dr with
  | some r => exact h.setDest _ (w (by simp))
  | none =>
    simp only [State.writeBit]
    split
    · refine h.setCurFlags _ fun g n => ?_
      have other : g.bit ≠ bn := fun e => n (f (by
        simp only [bitFlags, List.mem_filter, decide_eq_true_eq]
        exact ⟨by cases g <;> decide, e⟩))
      exact getLsbD_setBitTo_ne _ _ _ _ other
    · exact h

theorem bitFinish (h : Conforms D F L P s t) (dr : RegField) :
    Conforms D F L P s (t.bitFinish dr) := by
  unfold State.bitFinish
  split
  · exact h
  · exact h.next

/-- The float accumulator is T, A and D (45_float.md R221). -/
theorem setFloatAccumulator (h : Conforms D F L P s t) (f : Flt) (w : [Reg.t, .a, .d] ⊆ D) :
    Conforms D F L P s (t.setFloatAccumulator f) :=
  ((h.setDest _ (w (by decide))).setDest _ (w (by decide))).setDest _ (w (by decide))

theorem floatResult (h : Conforms D F L P s t) (r : Flt × FloatReport) (w : [Reg.t, .a, .d] ⊆ D)
    (f : Flag.z ∈ F) : Conforms D F L P s (t.floatResult r) := (h.setFloatAccumulator r.1 w).reportZ _ f

/-! ### The rest of the state -/

/-- Parts written that neither the level nor the invariant speaks of. -/
theorem setParts (h : Conforms D F L P s t) {parts : List Part} (o : OnlyParts parts t u)
    (banks : u.banks = t.banks) (w : parts ⊆ P)
    (apart : ∀ part ∈ [Part.pil, .memory, .pcr, .pgs], part ∉ parts) : Conforms D F L P s u :=
  h.trans ⟨⟨.of_banks banks, o.mono w, o .pil (apart _ (by decide))⟩,
    o.good fun part m => apart part (List.mem_cons_of_mem _ m)⟩

/-- An internal cause raised (60_exceptions.md R320). -/
theorem raiseCause (h : Conforms D F L P s t) (c : Cause) (w : causeParts ⊆ P) :
    Conforms D F L P s (t.raiseCause c) :=
  h.trans ⟨.of_cause c w, fun g => g.raiseInt 14 c.mask⟩

/-- A privileged meaning (60_exceptions.md R326). -/
theorem privileged {k : State → Result} (w : causeParts ⊆ P) (h : Ends (k s) (Conforms D F L P s)) :
    Ends (Sys2Proof.Machine.privileged s k) (Conforms D F L P s) :=
  ends_privileged (fun _ => h) (refl.raiseCause _ w)

/-- A meaning after an access. -/
theorem andThen {α : Type} {x : Access α} {k : α → State → Result} (h : Conforms D F L P s t)
    (access : x.Reaches (Conforms D F L P t))
    (rest : ∀ v u, Conforms D F L P s u → Ends (k v u) (Conforms D F L P s)) :
    Ends (x.andThen k) (Conforms D F L P s) :=
  Access.ends_andThen access (fun v u r => rest v u (h.trans r)) fun _ r => h.trans r

/-- An access after another. -/
theorem bind {α β : Type} {x : Access α} {k : α → State → Access β}
    (access : x.Reaches (Conforms D F L P s)) (rest : ∀ v u, (k v u).Reaches (Conforms D F L P u)) :
    (x.bind k).Reaches (Conforms D F L P s) :=
  Access.post_bind access
    (fun v u r => (rest v u).mono (fun _ _ q => r.trans q) fun _ q => r.trans q) fun _ r => r

end Conforms

/-! ### Accesses within a frame -/

variable {D : List Reg} {F : List Flag} {L : List Level} {P : List Part}

/-- The frame of an access and the invariant after it, joined. -/
theorem Access.Reaches.conforms {α : Type} {x : Access α} {s : State}
    (frame : x.Reaches (Framed D F L P s)) (good : x.Reaches fun t => s.Good → t.Good) :
    x.Reaches (Conforms D F L P s) := by
  cases x with
  | ok v t => exact ⟨frame, good⟩
  | abandoned t => exact ⟨frame, good⟩
  | refused r => trivial

theorem State.readAt_conforms (s : State) (kind : AccessKind) (loc : Location) (w : readParts ⊆ P) :
    (s.readAt kind loc).Reaches (Conforms D F L P s) :=
  Access.Reaches.conforms
    ((s.readAt_post kind loc).mono (fun _ _ h => .of_read h w) fun _ h => .of_fault h w)
    (s.readAt_good kind loc)

theorem State.writeAt_conforms (s : State) (datum : Datum) (loc : Location)
    (w : (.memory :: readParts) ⊆ P) : (s.writeAt datum loc).Reaches (Conforms D F L P s) :=
  Access.Reaches.conforms
    ((s.writeAt_post datum loc).mono (fun _ _ h => .of_write h w)
      fun _ h => .of_fault h fun _ m => w (List.mem_cons_of_mem _ m))
    (s.writeAt_good datum loc)

theorem State.memRead_conforms (s : State) (addr : Word) (apt : Bool) (w : readParts ⊆ P) :
    (s.memRead addr apt).Reaches (Conforms D F L P s) := s.readAt_conforms _ _ w

theorem State.memWrite_conforms (s : State) (addr : Word) (apt : Bool) (v : Word)
    (w : (.memory :: readParts) ⊆ P) : (s.memWrite addr apt v).Reaches (Conforms D F L P s) :=
  s.writeAt_conforms _ _ w

theorem State.memWriteByte_conforms (s : State) (addr : Word) (apt sel : Bool) (v : Byte)
    (w : (.memory :: readParts) ⊆ P) :
    (s.memWriteByte addr apt sel v).Reaches (Conforms D F L P s) := s.writeAt_conforms _ _ w

/-- Computing an effective address reads at most the pointer word (40_memory_reference.md R102). -/
theorem State.effectiveAddress_conforms (s : State) (mode : Mode) (disp : BitVec 8)
    (w : readParts ⊆ P) : (s.effectiveAddress mode disp).Reaches (Conforms D F L P s) := by
  cases mode <;> simp only [State.effectiveAddress]
  case pRel | bRel | xIdx | bxIdx => exact Conforms.refl
  all_goals exact Conforms.bind (s.memRead_conforms _ _ w) fun _ _ => Conforms.refl

theorem State.readOperand_conforms (s : State) (mode : Mode) (disp : BitVec 8) (w : readParts ⊆ P) :
    (s.readOperand mode disp).Reaches (Conforms D F L P s) :=
  Conforms.bind (s.effectiveAddress_conforms mode disp w) fun _ t => t.memRead_conforms _ _ w

theorem State.writeOperand_conforms (s : State) (mode : Mode) (disp : BitVec 8) (v : Word)
    (w : (.memory :: readParts) ⊆ P) : (s.writeOperand mode disp v).Reaches (Conforms D F L P s) :=
  Conforms.bind (s.effectiveAddress_conforms mode disp fun _ m => w (List.mem_cons_of_mem _ m))
    fun _ t => t.memWrite_conforms _ _ v w

/-- The three reads of a float operand (45_float.md section 3). -/
theorem State.readFloat_conforms (s : State) (mode : Mode) (disp : BitVec 8) (w : readParts ⊆ P) :
    (s.readFloat mode disp).Reaches (Conforms D F L P s) :=
  Conforms.bind (s.effectiveAddress_conforms mode disp w) fun _ t =>
    Conforms.bind (t.memRead_conforms _ _ w) fun _ u =>
      Conforms.bind (u.memRead_conforms _ _ w) fun _ v =>
        Conforms.bind (v.memRead_conforms _ _ w) fun _ _ => Conforms.refl

theorem State.memReadList_conforms (apt : Bool) (w : readParts ⊆ P) (addrs : List Word) (s : State) :
    (s.memReadList apt addrs).Reaches (Conforms D F L P s) := by
  induction addrs generalizing s with
  | nil => exact Conforms.refl
  | cons a rest ih =>
    exact Conforms.bind (s.memRead_conforms a apt w) fun _ t =>
      Conforms.bind (ih t) fun _ _ => Conforms.refl

theorem State.memWriteList_conforms (apt : Bool) (w : (.memory :: readParts) ⊆ P)
    (writes : List (Word × Word)) (s : State) :
    (s.memWriteList apt writes).Reaches (Conforms D F L P s) := by
  induction writes generalizing s with
  | nil => exact Conforms.refl
  | cons a rest ih => exact Conforms.bind (s.memWrite_conforms a.1 apt a.2 w) fun _ t => ih t

/-- A physical read changes nothing (20_memory.md R63). -/
theorem State.physRead_conforms (s : State) (pa : PhysAddr) :
    (s.physRead pa).Reaches (Conforms D F L P s) :=
  (s.physRead_post pa).mono (fun _ _ h => h.2 ▸ .refl) fun _ h => h.elim

/-- Physical memory changes in canonical form. -/
theorem State.setPhys_conforms (s : State) (pa : PhysAddr) (v : Word) (w : Part.memory ∈ P) :
    Conforms D F L P s (s.setPhys pa v) where
  framed := ⟨.of_banks rfl, fun part n => by cases part <;> first | rfl | exact absurd w n, rfl⟩
  good g := g.setMem (s.mem.wf_writeWord pa v g.memory)

theorem State.physWrite_conforms (s : State) (pa : PhysAddr) (v : Word) (w : Part.memory ∈ P) :
    (s.physWrite pa v).Reaches (Conforms D F L P s) :=
  (s.physWrite_post pa v).mono (fun _ _ h => h ▸ s.setPhys_conforms pa v w) fun _ h => h.elim

end Sys2Proof.Machine
end

section
/-! The frame of every instruction (`destinations`, `flagsWritten`, `otherLevel`, `partsWritten`) and the
invariant after it: one lemma per shape of meaning, then the table of `exec`. -/

namespace Sys2Proof.Machine

/-! ### One part of the system state written -/

namespace OnlyParts

variable (s : State)

theorem ioni (v : Bool) : OnlyParts [.ioni] s { s with ioni := v } := fun part n => by
  cases part <;> first | rfl | exact absurd (by decide) n

theorem poni (v : Bool) : OnlyParts [.poni] s { s with poni := v } := fun part n => by
  cases part <;> first | rfl | exact absurd (by decide) n

theorem sexi (v : Bool) : OnlyParts [.sexi] s { s with sexi := v } := fun part n => by
  cases part <;> first | rfl | exact absurd (by decide) n

theorem runMode (v : RunMode) : OnlyParts [.runMode] s { s with runMode := v } := fun part n => by
  cases part <;> first | rfl | exact absurd (by decide) n

theorem pid (v : Word) : OnlyParts [.pid] s { s with pid := v } := fun part n => by
  cases part <;> first | rfl | exact absurd (by decide) n

theorem pie (v : Word) : OnlyParts [.pie] s { s with pie := v } := fun part n => by
  cases part <;> first | rfl | exact absurd (by decide) n

theorem iid (v : Word) : OnlyParts [.iid] s { s with iid := v } := fun part n => by
  cases part <;> first | rfl | exact absurd (by decide) n

theorem causes (i p : Word) : OnlyParts causeParts s { s with iid := i, pid := p } :=
  fun part n => by cases part <;> first | rfl | exact absurd (by decide) n

theorem iie (v : Word) : OnlyParts [.iie] s { s with iie := v } := fun part n => by
  cases part <;> first | rfl | exact absurd (by decide) n

theorem pcr (l : Level) (v : Word) : OnlyParts [.pcr] s (s.setPcr l v) := fun part n => by
  cases part <;> first | rfl | exact absurd (by decide) n

theorem external (v : Vector Word 16) : OnlyParts [.external] s { s with ext := v } :=
  fun part n => by cases part <;> first | rfl | exact absurd (by decide) n

theorem identChain (v : List IdentEntry) : OnlyParts [.identChain] s { s with identChain := v } :=
  fun part n => by cases part <;> first | rfl | exact absurd (by decide) n

theorem ioCount (v : Nat) : OnlyParts [.ioCount] s { s with ioCount := v } := fun part n => by
  cases part <;> first | rfl | exact absurd (by decide) n

end OnlyParts

open Conforms

variable (s : State)

/-! ### Memory reference (40_memory_reference.md, 44_muldiv_byte.md) -/

theorem storeOperand_conforms (mode : Mode) (disp : BitVec 8) (v : Word) :
    Ends (storeOperand mode disp v s) (Conforms [] [] [] (.memory :: readParts) s) :=
  refl.andThen (s.writeOperand_conforms mode disp v (List.Subset.refl _)) fun _ _ h => h.next

theorem loadOperand_conforms (r : Reg) (mode : Mode) (disp : BitVec 8) :
    Ends (loadOperand r mode disp s) (Conforms [r] [] [] readParts s) :=
  refl.andThen (s.readOperand_conforms mode disp (List.Subset.refl _)) fun v _ h =>
    (h.setDest v (by simp)).next

theorem execAdd_conforms (mode : Mode) (disp : BitVec 8) :
    Ends (execAdd mode disp s) (Conforms [.a] [.c, .q, .o] [] readParts s) :=
  refl.andThen (s.readOperand_conforms mode disp (List.Subset.refl _)) fun m _ h =>
    (h.addTo m false (by decide) (List.Subset.refl _)).next

theorem execSub_conforms (mode : Mode) (disp : BitVec 8) :
    Ends (execSub mode disp s) (Conforms [.a] [.c, .q, .o] [] readParts s) :=
  refl.andThen (s.readOperand_conforms mode disp (List.Subset.refl _)) fun m _ h =>
    (h.addTo (~~~m) true (by decide) (List.Subset.refl _)).next

theorem execAnd_conforms (mode : Mode) (disp : BitVec 8) :
    Ends (execAnd mode disp s) (Conforms [.a] [] [] readParts s) :=
  refl.andThen (s.readOperand_conforms mode disp (List.Subset.refl _)) fun _ _ h =>
    (h.setDest _ (by decide)).next

theorem execOra_conforms (mode : Mode) (disp : BitVec 8) :
    Ends (execOra mode disp s) (Conforms [.a] [] [] readParts s) :=
  refl.andThen (s.readOperand_conforms mode disp (List.Subset.refl _)) fun _ _ h =>
    (h.setDest _ (by decide)).next

theorem execMpy_conforms (mode : Mode) (disp : BitVec 8) :
    Ends (execMpy mode disp s) (Conforms [.a] [.q, .o] [] readParts s) :=
  refl.andThen (s.readOperand_conforms mode disp (List.Subset.refl _)) fun _ _ h =>
    ((h.overflowFlags _ (List.Subset.refl _)).setDest _ (by decide)).next

theorem execMin_conforms (mode : Mode) (disp : BitVec 8) :
    Ends (execMin mode disp s) (Conforms [] [] [] (.memory :: readParts) s) :=
  refl.andThen (s.effectiveAddress_conforms mode disp (by decide)) fun _ t h =>
    h.andThen (t.memRead_conforms _ _ (by decide)) fun _ u h =>
      h.andThen (u.memWrite_conforms _ _ _ (List.Subset.refl _)) fun _ _ h => h.skipIf _

theorem execStd_conforms (mode : Mode) (disp : BitVec 8) :
    Ends (execStd mode disp s) (Conforms [] [] [] (.memory :: readParts) s) :=
  refl.andThen (s.effectiveAddress_conforms mode disp (by decide)) fun _ t h =>
    h.andThen (t.memWrite_conforms _ _ _ (List.Subset.refl _)) fun _ u h =>
      h.andThen (u.memWrite_conforms _ _ _ (List.Subset.refl _)) fun _ _ h => h.next

theorem execStf_conforms (mode : Mode) (disp : BitVec 8) :
    Ends (execStf mode disp s) (Conforms [] [] [] (.memory :: readParts) s) :=
  refl.andThen (s.effectiveAddress_conforms mode disp (by decide)) fun _ t h =>
    h.andThen (t.memWrite_conforms _ _ _ (List.Subset.refl _)) fun _ u h =>
      h.andThen (u.memWrite_conforms _ _ _ (List.Subset.refl _)) fun _ v h =>
        h.andThen (v.memWrite_conforms _ _ _ (List.Subset.refl _)) fun _ _ h => h.next

theorem execLdd_conforms (mode : Mode) (disp : BitVec 8) :
    Ends (execLdd mode disp s) (Conforms [.a, .d] [] [] readParts s) :=
  refl.andThen (s.effectiveAddress_conforms mode disp (List.Subset.refl _)) fun _ t h =>
    h.andThen (t.memRead_conforms _ _ (List.Subset.refl _)) fun v u h =>
      (h.setDest v (by decide)).andThen
        ((u.setCur .a v).memRead_conforms _ _ (List.Subset.refl _)) fun w _ h =>
          (h.setDest w (by decide)).next

theorem execLdf_conforms (mode : Mode) (disp : BitVec 8) :
    Ends (execLdf mode disp s) (Conforms [.t, .a, .d] [] [] readParts s) :=
  refl.andThen (s.effectiveAddress_conforms mode disp (List.Subset.refl _)) fun _ t h =>
    h.andThen (t.memRead_conforms _ _ (List.Subset.refl _)) fun x t h =>
      (h.setDest x (by decide)).andThen
        ((t.setCur .t x).memRead_conforms _ _ (List.Subset.refl _)) fun y t h =>
          (h.setDest y (by decide)).andThen
            ((t.setCur .a y).memRead_conforms _ _ (List.Subset.refl _)) fun z _ h =>
              (h.setDest z (by decide)).next

theorem execLbyt_conforms : Ends (execLbyt s) (Conforms [.a] [] [] readParts s) :=
  refl.andThen (s.memRead_conforms _ _ (List.Subset.refl _)) fun _ _ h =>
    (h.setDest _ (by decide)).next

theorem execSbyt_conforms : Ends (execSbyt s) (Conforms [] [] [] (.memory :: readParts) s) :=
  refl.andThen (s.memWriteByte_conforms _ _ _ _ (List.Subset.refl _)) fun _ _ h => h.next

theorem execTset_conforms : Ends (execTset s) (Conforms [.t] [] [] (.memory :: readParts) s) :=
  refl.andThen (s.memRead_conforms _ _ (by decide)) fun v t h =>
    (h.setDest v (by decide)).andThen
      ((t.setCur .t v).memWrite_conforms _ _ _ (List.Subset.refl _)) fun _ _ h => h.next

theorem execRdus_conforms : Ends (execRdus s) (Conforms [.t] [] [] readParts s) :=
  refl.andThen (s.memRead_conforms _ _ (List.Subset.refl _)) fun v _ h =>
    (h.setDest v (by decide)).next

/-! ### Float (45_float.md) -/

/-- FAD, FSB and FMU: a result made of the accumulator and the operand read. -/
theorem floatOperation_conforms (f : Flt → State → Flt × FloatReport) (mode : Mode)
    (disp : BitVec 8) :
    Ends ((s.readFloat mode disp).andThen fun b t => .next (t.floatResult (f b t)).next)
      (Conforms [.t, .a, .d] [.z] [] readParts s) :=
  refl.andThen (s.readFloat_conforms mode disp (List.Subset.refl _)) fun _ _ h =>
    (h.floatResult _ (List.Subset.refl _) (by decide)).next

/-- FDV writes Z alone where the divisor is zero (R233). -/
theorem execFdv_conforms (mode : Mode) (disp : BitVec 8) :
    Ends (execFdv mode disp s) (Conforms [.t, .a, .d] [.z] [] readParts s) :=
  refl.andThen (s.readFloat_conforms mode disp (List.Subset.refl _)) fun b _ h => by
    by_cases zero : b.man = 0
    · rw [if_pos zero]
      exact (h.setFlag true (by decide)).next
    · rw [if_neg zero]
      exact (h.floatResult _ (List.Subset.refl _) (by decide)).next

theorem execNlz_conforms (scale : Int) :
    Ends (execNlz scale s) (Conforms [.t, .a, .d] [] [] [] s) :=
  (refl.setFloatAccumulator _ (List.Subset.refl _)).next

theorem execDnz_conforms (scale : Int) :
    Ends (execDnz scale s) (Conforms [.t, .a, .d] [.z] [] [] s) :=
  ((((refl.reportZ _ (by decide)).setDest _ (by decide)).setDest _ (by decide)).setDest _
    (by decide)).next

/-! ### Control transfer (41_control_transfer.md) -/

theorem execJmp_conforms (mode : Mode) (disp : BitVec 8) :
    Ends (execJmp mode disp s) (Conforms [] [] [] readParts s) :=
  refl.andThen (s.effectiveAddress_conforms mode disp (List.Subset.refl _)) fun _ _ h => h.jump _

theorem execJpl_conforms (mode : Mode) (disp : BitVec 8) :
    Ends (execJpl mode disp s) (Conforms [.l] [] [] readParts s) :=
  refl.andThen (s.effectiveAddress_conforms mode disp (List.Subset.refl _)) fun _ _ h =>
    (h.setDest _ (by decide)).jump _

theorem jumpIf_conforms (c : Bool) (disp : BitVec 8) : Conforms [] [] [] [] s (s.jumpIf c disp) :=
  refl.jumpIf c disp

/-- JPC and JNC count X before their test (R136, R137). -/
theorem countX_jumpIf_conforms (c : Bool) (disp : BitVec 8) :
    Conforms [.x] [] [] [] s (s.countX.jumpIf c disp) := (refl.setDest _ (by decide)).jumpIf c disp

theorem skipIf_conforms (c : Bool) : Conforms [] [] [] [] s (s.skipIf c) := refl.skipIf c

/-! ### Register operations (42_register_ops.md, 43_shift.md, 44_muldiv_byte.md) -/

theorem execSwap_conforms (cm1 cld : Bool) (sr dr : RegField) :
    Ends (execSwap cm1 cld sr dr s) (Conforms (sr.toList ++ dr.toList) [] [] [] s) := by
  have toDr : dr.toList ⊆ sr.toList ++ dr.toList := List.subset_append_right _ _
  cases sr with
  | none => exact refl.roFinish _ toDr
  | some q =>
    cases q
    case p =>
      cases dr with
      | none => exact refl.jump _
      | some r =>
        cases r
        case p => exact refl.jump _
        all_goals exact (refl.setDest _ (by simp)).jump _
    all_goals exact (refl.setDest _ (by simp)).roFinish _ toDr

theorem combineRegisters_conforms (f : Word → Word → Word) (cm1 cld : Bool) (sr dr : RegField) :
    Ends (combineRegisters f cm1 cld sr dr s) (Conforms dr.toList [] [] [] s) :=
  refl.roFinish _ (List.Subset.refl _)

theorem execRadd_conforms (adc ad1 cm1 cld : Bool) (sr dr : RegField) :
    Ends (execRadd adc ad1 cm1 cld sr dr s) (Conforms dr.toList [.c, .q, .o] [] [] s) :=
  (refl.addFlags _ _ _ (List.Subset.refl _)).roFinish _ (List.Subset.refl _)

/-- SAA and its like: a register of the current level loaded. -/
theorem setCur_next_conforms (r : Reg) (v : Word) : Conforms [r] [] [] [] s (s.setCur r v).next :=
  (refl.setDest v (by simp)).next

/-- AAA and its like: an argument added to a register. -/
theorem addTo_next_conforms (r : Reg) (v : Word) :
    Conforms [r] [.c, .q, .o] [] [] s (s.addTo r v false).next :=
  (refl.addTo v false (by simp) (List.Subset.refl _)).next

theorem execRmpy_conforms (sr dr : RegField) :
    Ends (execRmpy sr dr s) (Conforms [.a, .d] [.q, .o] [] [] s) :=
  (((refl.overflowFlags _ (List.Subset.refl _)).setDest _ (by decide)).setDest _ (by decide)).next

/-- RDIV writes A and D in every case that it completes (44_muldiv_byte.md R202, R203). -/
theorem execRdiv_conforms (sr : RegField) :
    Ends (execRdiv sr s) (Conforms [.a, .d] [] [] [] s) := by
  unfold execRdiv
  dsimp only
  split
  · split
    · trivial
    · exact ((refl.setDest _ (by decide)).setDest _ (by decide)).next
  · exact ((refl.setDest _ (by decide)).setDest _ (by decide)).next

theorem shiftRegister_conforms (r : Reg) (type : ShiftType) (n : Int) :
    Ends (shiftRegister r type n s) (Conforms [r] [.m] [] [] s) :=
  ((refl.setDest _ (by simp)).setFlag _ (by decide)).next

theorem execSad_conforms (type : ShiftType) (n : Int) :
    Ends (execSad type n s) (Conforms [.a, .d] [.m] [] [] s) :=
  (((refl.setDest _ (by decide)).setDest _ (by decide)).setFlag _ (by decide)).next

/-! ### Bit instructions (42_register_ops.md R170 to R186) -/

theorem writeBitAndEnd_conforms (bn : Nat) (dr : RegField) (v : Bool) :
    Ends (writeBitAndEnd bn dr v s) (Conforms dr.toList (bitFlags bn dr) [] [] s) :=
  (refl.writeBit v (List.Subset.refl _) (List.Subset.refl _)).bitFinish dr

theorem writeBitThenK_conforms (bn : Nat) (dr : RegField) (v k : Bool) :
    Ends (writeBitThenK bn dr v k s) (Conforms dr.toList (.k :: bitFlags bn dr) [] [] s) :=
  ((refl.writeBit v (List.Subset.refl _) (List.subset_cons_self _ _)).setFlag k
    List.mem_cons_self).bitFinish dr

theorem writeK_conforms (v : Bool) : Ends (writeK v s) (Conforms [] [.k] [] [] s) :=
  (refl.setFlag v (by decide)).next

/-! ### Physical memory and the devices (46_system.md R275 to R284) -/

theorem physLoad_conforms (r : Reg) (pa : State → PhysAddr) :
    Ends (privileged s fun s => physLoad r (pa s) s) (Conforms [r] [] [] causeParts s) :=
  Conforms.privileged (List.Subset.refl _) <|
    refl.andThen (s.physRead_conforms (pa s)) fun v _ h => (h.setDest v (by simp)).next

theorem physStore_conforms (pa : State → PhysAddr) (v : State → Word) :
    Ends (privileged s fun s => physStore (pa s) (v s) s)
      (Conforms [] [] [] (.memory :: causeParts) s) :=
  Conforms.privileged (List.subset_cons_self _ _) <|
    refl.andThen (s.physWrite_conforms (pa s) (v s) (by decide)) fun _ _ h => h.next

theorem execLddtx_conforms (delta : BitVec 3) :
    Ends (execLddtx delta s) (Conforms [.a, .d] [] [] causeParts s) :=
  Conforms.privileged (List.Subset.refl _) <|
    refl.andThen (s.physRead_conforms _) fun _ t h =>
      h.andThen (t.physRead_conforms _) fun _ _ h =>
        ((h.setDest _ (by decide)).setDest _ (by decide)).next

theorem execStdtx_conforms (delta : BitVec 3) :
    Ends (execStdtx delta s) (Conforms [] [] [] (.memory :: causeParts) s) :=
  Conforms.privileged (List.subset_cons_self _ _) <|
    refl.andThen (s.physWrite_conforms _ _ (by decide)) fun _ t h =>
      h.andThen (t.physWrite_conforms _ _ (by decide)) fun _ _ h => h.next

/-- IOX and IOXT: a call of the devices, and the IOX error where none answers. -/
theorem ioCall_conforms (address : State → Word) :
    Ends (privileged s fun s => ioCall (address s) s)
      (Conforms [.a] [] [] (.ioCount :: causeParts) s) := by
  refine Conforms.privileged (List.subset_cons_self _ _) ?_
  have counted : Conforms [.a] [] [] (.ioCount :: causeParts) s { s with ioCount := s.ioCount + 1 } :=
    refl.setParts (OnlyParts.ioCount s _) rfl (by decide) (by decide)
  have answered := counted.setDest (r := .a) (Config.ioOp s.ioCount (address s) (s.cur .a)).1 (by decide)
  refine (answered.setParts (parts := causeParts) ?_ ?_ (by decide) (by decide)).next
  · exact OnlyParts.causes _ _ _
  · rfl

/-! ### Interrupts and other levels (46_system.md R268 to R274) -/

/-- WAIT gives up the level, or stops the CPU (R268). -/
theorem execWait_conforms : Ends (execWait s) (Conforms [] [] [] (.runMode :: causeParts) s) := by
  have gaveUp : Conforms [] [] [] (.runMode :: causeParts) s s.giveUp :=
    refl.setParts (OnlyParts.pid s _) rfl (by decide) (by decide)
  refine Conforms.privileged (List.subset_cons_self _ _) ?_
  split
  · exact gaveUp.next
  · exact (refl.setParts (OnlyParts.runMode s .stop) rfl (by decide) (by decide)).next

theorem execMon_conforms (n : BitVec 8) :
    Ends (execMon n s) (Conforms (if s.pil = 14 then [.t] else []) [] [14] causeParts s) :=
  ((refl.raiseCause .monitorCall (List.Subset.refl _)).setReg (sext8 n) (by decide)
    fun e => .inr (by rw [if_pos e.symm]; decide)).next

theorem identLevel_conforms (level : Level) :
    Ends (identLevel level s) (Conforms [.a] [] [] (.identChain :: causeParts) s) := by
  refine Conforms.privileged (List.subset_cons_self _ _) ?_
  cases takeIdent level s.identChain with
  | none => exact (refl.raiseCause .ioxError (by decide)).next
  | some found =>
    exact ((refl.setParts (OnlyParts.identChain s found.2) rfl (by decide) (by decide)).setDest _
      (by decide)).next

theorem execIrr_conforms (level : Level) (reg : RegField) :
    Ends (execIrr level reg s) (Conforms [.a] [] [] causeParts s) :=
  Conforms.privileged (List.Subset.refl _) (refl.setDest _ (by decide)).next

theorem mem_allFlags (g : Flag) : g ∈ allFlags := by cases g <;> decide

/-- Field 0 of IRW is the flags of the level (R272). -/
theorem execIrw_flags_conforms (level : Level) :
    Ends (execIrw level none s)
      (Conforms (if level = s.pil then [] else []) (if level = s.pil then allFlags else []) [level]
        causeParts s) :=
  Conforms.privileged (List.Subset.refl _)
    (refl.setFlags _ (by simp) fun e g => by rw [if_pos e]; exact mem_allFlags g).next

/-- The current level's own P is not written by IRW (R272). -/
theorem execIrw_reg_conforms (level : Level) (r : Reg) :
    Ends (execIrw level (some r) s)
      (Conforms (if level = s.pil then [r] else []) [] [level] causeParts s) := by
  refine Conforms.privileged (List.Subset.refl _) ?_
  dsimp only
  split
  · exact refl.next
  · exact (refl.setReg _ (by simp) fun e => .inr (by rw [if_pos e]; simp)).next

/-- The registers a block holds, P apart (R273). -/
def blockRegisters : List Reg := [.x, .t, .a, .d, .l, .b]

/-- A register block loaded to a level: the current level's own P is left alone (R273). -/
theorem loadBlock_conforms {D : List Reg} {F : List Flag} {P : List Part} {t : State} (level : Level)
    (vs : List Word) (h : Conforms D F [level] P s t) (regs : level = s.pil → blockRegisters ⊆ D)
    (flags : level = s.pil → ∀ g, g ∈ F) : Conforms D F [level] P s (t.loadBlock level vs) := by
  have named : level ∈ [level] := List.mem_singleton.mpr rfl
  have dest : ∀ r ∈ blockRegisters, level = s.pil → r = .p ∨ r ∈ D := fun r m e => .inr (regs e m)
  unfold State.loadBlock
  split
  next p x t' a d l sts b =>
    have start : Conforms D F [level] P s (if level = t.pil then t else t.setReg level .p p) := by
      split
      · exact h
      · exact h.setReg p named fun _ => .inl rfl
    exact ((((((start.setReg x named (dest .x (by decide))).setReg t' named
      (dest .t (by decide))).setReg a named (dest .a (by decide))).setReg d named
      (dest .d (by decide))).setReg l named (dest .l (by decide))).setFlags _ named flags).setReg b
      named (dest .b (by decide))
  next => exact h

/-- LRB reads the whole block before it writes a register (R273). -/
theorem execLrb_conforms (level : Level) :
    Ends (execLrb level s)
      (Conforms (if level = s.pil then [.x, .t, .a, .d, .l, .b] else [])
        (if level = s.pil then allFlags else []) [level] readParts s) :=
  Conforms.privileged (by decide) <|
    refl.andThen (s.memReadList_conforms true (List.Subset.refl _) _) fun vs _ h =>
      (loadBlock_conforms s level vs h (fun e => by rw [if_pos e]; exact List.Subset.refl _)
        fun e g => by rw [if_pos e]; exact mem_allFlags g).next

theorem execSrb_conforms (level : Level) :
    Ends (execSrb level s) (Conforms [] [] [] (.memory :: readParts) s) :=
  Conforms.privileged (by decide) <|
    refl.andThen (s.memWriteList_conforms true (List.Subset.refl _) _) fun _ _ h => h.next

/-! ### Internal registers, mode switches (46_system.md R250 to R267, R285) -/

/-- TRA writes A, and clears IID when it reads IIC (R253). -/
theorem execTra_conforms (n : BitVec 4) : Ends (execTra n s) (Conforms [.a] [] [] causeParts s) := by
  refine Conforms.privileged (List.Subset.refl _) ?_
  have read := (refl (s := s) (D := [.a]) (F := []) (L := []) (P := causeParts)).setDest (r := .a)
    (s.internalRead n) (by decide)
  by_cases iic : n = 0o5
  · simp only [if_pos iic]
    exact (read.setParts (OnlyParts.iid _ 0) rfl (by decide) (by decide)).next
  · simp only [if_neg iic]
    exact read.next

/-- TRR by register number (R254): a page-control register gets its fields only. -/
theorem internalWrite_conforms (n : BitVec 4) :
    Conforms [] (flagsWritten s.pil (.trr n)) [] (partsWritten (.trr n)) s (s.internalWrite n) := by
  show Conforms [] (if n = 1 then allFlags else []) []
    ((if n = 0o1 then [] else if n = 0o3 then [.pcr] else if n = 0o5 then [.iie]
      else if n = 0o6 then [] else if n = 0o7 then [.pie] else [.external]) ++ causeParts) s _
  unfold State.internalWrite
  split_ifs
  · exact refl.setCurFlags _ fun g out => absurd (mem_allFlags g) out
  · exact ⟨⟨.of_banks rfl, (OnlyParts.pcr s _ _).mono (by decide), rfl⟩, fun g => g.setPcr _ _⟩
  · exact refl.setParts (OnlyParts.iie s _) rfl (by decide) (by decide)
  · exact refl.setParts (OnlyParts.pid s _) rfl (by decide) (by decide)
  · exact refl.setParts (OnlyParts.pie s _) rfl (by decide) (by decide)
  · exact refl.setParts (OnlyParts.external s _) rfl (by decide) (by decide)

theorem execTrr_conforms (n : BitVec 4) :
    Ends (execTrr n s)
      (Conforms [] (flagsWritten s.pil (.trr n)) [] (partsWritten (.trr n)) s) :=
  Conforms.privileged (List.subset_append_right _ _) (internalWrite_conforms s n).next

/-- What MCL and MST do with the new values of the registers they can write (R255, R256). -/
def State.maskedWrite (s : State) (n : BitVec 4) (f : BitVec 8) (pid pie : Word) : State :=
  if n = 0o1 then s.setCurFlags f
  else if n = 0o6 then { s with pid := pid }
  else if n = 0o7 then { s with pie := pie }
  else s

theorem maskedWrite_conforms (n : BitVec 4) (f : BitVec 8) (pid pie : Word) :
    Conforms [] (if n = 1 then allFlags else []) [] ((if n = 0o7 then [.pie] else []) ++ causeParts) s
      (s.maskedWrite n f pid pie) := by
  by_cases sts : n = 0o1
  · subst sts
    exact refl.setCurFlags _ fun g out => absurd (mem_allFlags g) out
  by_cases isPid : n = 0o6
  · subst isPid
    exact refl.setParts (OnlyParts.pid s _) rfl (by decide) (by decide)
  by_cases isPie : n = 0o7
  · subst isPie
    exact refl.setParts (OnlyParts.pie s _) rfl (by decide) (by decide)
  · simp only [State.maskedWrite, if_neg sts, if_neg isPid, if_neg isPie]
    exact refl

theorem execMcl_conforms (n : BitVec 4) :
    Ends (execMcl n s) (Conforms [] (if n = 1 then allFlags else []) []
      ((if n = 0o7 then [.pie] else []) ++ causeParts) s) :=
  Conforms.privileged (List.subset_append_right _ _) (maskedWrite_conforms s n _ _ _).next

theorem execMst_conforms (n : BitVec 4) :
    Ends (execMst n s) (Conforms [] (if n = 1 then allFlags else []) []
      ((if n = 0o7 then [.pie] else []) ++ causeParts) s) :=
  Conforms.privileged (List.subset_append_right _ _) (maskedWrite_conforms s n _ _ _).next

/-- The mode switches and OPCOM: one change of the system state, then `next`. -/
theorem switch_conforms {parts : List Part} (w : State → State) (o : OnlyParts parts s (w s))
    (banks : (w s).banks = s.banks) (apart : ∀ part ∈ [Part.pil, .memory, .pcr, .pgs], part ∉ parts) :
    Ends (privileged s fun s => .next (w s).next) (Conforms [] [] [] (parts ++ causeParts) s) :=
  Conforms.privileged (List.subset_append_right _ _)
    (refl.setParts o banks (List.subset_append_left _ _) apart).next

/-- An unimplemented instruction writes the run mode only (46_system.md R290). -/
theorem haltCpu_conforms : Ends (haltCpu s) (Conforms [] [] [] [.runMode] s) :=
  refl.setParts (OnlyParts.runMode s .shutdown) rfl (List.Subset.refl _) (by decide)

/-! ### The table -/

/-- Every instruction but EXR stays within its frame and keeps the invariant. -/
theorem exec_conforms (i : Instr) (notExr : ∀ sr, i ≠ .exr sr) :
    Ends (exec i s) (Conforms (destinations s.pil i) (flagsWritten s.pil i) (otherLevel i).toList
      (partsWritten i) s) := by
  cases i with
  | stz mode disp => exact storeOperand_conforms s mode disp 0
  | sta mode disp => exact storeOperand_conforms s mode disp (s.cur .a)
  | stt mode disp => exact storeOperand_conforms s mode disp (s.cur .t)
  | stx mode disp => exact storeOperand_conforms s mode disp (s.cur .x)
  | std mode disp => exact execStd_conforms s mode disp
  | ldd mode disp => exact execLdd_conforms s mode disp
  | stf mode disp => exact execStf_conforms s mode disp
  | ldf mode disp => exact execLdf_conforms s mode disp
  | min mode disp => exact execMin_conforms s mode disp
  | lda mode disp => exact loadOperand_conforms s .a mode disp
  | ldt mode disp => exact loadOperand_conforms s .t mode disp
  | ldx mode disp => exact loadOperand_conforms s .x mode disp
  | add mode disp => exact execAdd_conforms s mode disp
  | sub mode disp => exact execSub_conforms s mode disp
  | and mode disp => exact execAnd_conforms s mode disp
  | ora mode disp => exact execOra_conforms s mode disp
  | fad mode disp => exact floatOperation_conforms s (fun b t => fadd t.floatAccumulator b) mode disp
  | fsb mode disp => exact floatOperation_conforms s (fun b t => fadd t.floatAccumulator b.negate) mode disp
  | fmu mode disp => exact floatOperation_conforms s (fun b t => fmul t.floatAccumulator b) mode disp
  | fdv mode disp => exact execFdv_conforms s mode disp
  | mpy mode disp => exact execMpy_conforms s mode disp
  | jmp mode disp => exact execJmp_conforms s mode disp
  | jpl mode disp => exact execJpl_conforms s mode disp
  | jap disp => exact jumpIf_conforms s _ disp
  | jan disp => exact jumpIf_conforms s _ disp
  | jaz disp => exact jumpIf_conforms s _ disp
  | jaf disp => exact jumpIf_conforms s _ disp
  | jxz disp => exact jumpIf_conforms s _ disp
  | jxn disp => exact jumpIf_conforms s _ disp
  | jpc disp => exact countX_jumpIf_conforms s _ disp
  | jnc disp => exact countX_jumpIf_conforms s _ disp
  | skpEql sr dr => exact skipIf_conforms s _
  | skpGeq sr dr => exact skipIf_conforms s _
  | skpGre sr dr => exact skipIf_conforms s _
  | skpMgre sr dr => exact skipIf_conforms s _
  | skpUeq sr dr => exact skipIf_conforms s _
  | skpLss sr dr => exact skipIf_conforms s _
  | skpLst sr dr => exact skipIf_conforms s _
  | skpMlst sr dr => exact skipIf_conforms s _
  | addd | subd | comd | pack | upack | shde | bfill | movb | movbf | init
  | entr | leave | eleav | setpt | clept | clnreent | chreentpages | clepu | movew | lwcs
  | ldbtx delta => exact haltCpu_conforms s
  | tset => exact execTset_conforms s
  | rdus => exact execRdus_conforms s
  | lbyt => exact execLbyt_conforms s
  | sbyt => exact execSbyt_conforms s
  | exr sr => exact absurd rfl (notExr sr)
  | rmpy sr dr => exact execRmpy_conforms s sr dr
  | rdiv sr => exact execRdiv_conforms s sr
  | mix3 => exact setCur_next_conforms s .x _
  | ldatx delta => exact physLoad_conforms s .a (·.txAddress delta)
  | ldxtx delta => exact physLoad_conforms s .x (·.txAddress delta)
  | exam => exact physLoad_conforms s .t State.panelAddress
  | lddtx delta => exact execLddtx_conforms s delta
  | statx delta => exact physStore_conforms s (·.txAddress delta) (·.cur .a)
  | stztx delta => exact physStore_conforms s (·.txAddress delta) fun _ => 0
  | depo => exact physStore_conforms s State.panelAddress (·.cur .t)
  | stdtx delta => exact execStdtx_conforms s delta
  | identPL10 => exact identLevel_conforms s 10
  | identPL11 => exact identLevel_conforms s 11
  | identPL12 => exact identLevel_conforms s 12
  | identPL13 => exact identLevel_conforms s 13
  | swap cm1 cld sr dr => exact execSwap_conforms s cm1 cld sr dr
  | rand cm1 cld sr dr => exact combineRegisters_conforms s _ cm1 cld sr dr
  | rexo cm1 cld sr dr => exact combineRegisters_conforms s _ cm1 cld sr dr
  | rora cm1 cld sr dr => exact combineRegisters_conforms s _ cm1 cld sr dr
  | radd adc ad1 cm1 cld sr dr => exact execRadd_conforms s adc ad1 cm1 cld sr dr
  | tra n => exact execTra_conforms s n
  | trr n => exact execTrr_conforms s n
  | mcl n => exact execMcl_conforms s n
  | mst n => exact execMst_conforms s n
  | opcom => exact switch_conforms s ({ · with runMode := .stop }) (OnlyParts.runMode s _) rfl (by decide)
  | iof => exact switch_conforms s ({ · with ioni := false }) (OnlyParts.ioni s _) rfl (by decide)
  | ion => exact switch_conforms s ({ · with ioni := true }) (OnlyParts.ioni s _) rfl (by decide)
  | pof => exact switch_conforms s ({ · with poni := false }) (OnlyParts.poni s _) rfl (by decide)
  | pon => exact switch_conforms s ({ · with poni := true }) (OnlyParts.poni s _) rfl (by decide)
  | sex => exact switch_conforms s ({ · with sexi := true }) (OnlyParts.sexi s _) rfl (by decide)
  | rex => exact switch_conforms s ({ · with sexi := false }) (OnlyParts.sexi s _) rfl (by decide)
  | piof =>
    exact switch_conforms s ({ · with poni := false, ioni := false })
      ((OnlyParts.ioni s false).trans (OnlyParts.poni _ false)) rfl (by decide)
  | pion =>
    exact switch_conforms s ({ · with poni := true, ioni := true })
      ((OnlyParts.ioni s true).trans (OnlyParts.poni _ true)) rfl (by decide)
  | iox dev => exact ioCall_conforms s fun _ => dev.zeroExtend 16
  | ioxt => exact ioCall_conforms s (·.cur .t)
  | wait => exact execWait_conforms s
  | nlz scale => exact execNlz_conforms s scale
  | dnz scale => exact execDnz_conforms s scale
  | srb level => exact execSrb_conforms s level
  | lrb level => exact execLrb_conforms s level
  | mon n => exact execMon_conforms s n
  | irw level reg =>
    cases reg with
    | none => exact execIrw_flags_conforms s level
    | some r => exact execIrw_reg_conforms s level r
  | irr level reg => exact execIrr_conforms s level reg
  | sht type count => exact shiftRegister_conforms s .t type count
  | shd type count => exact shiftRegister_conforms s .d type count
  | sha type count => exact shiftRegister_conforms s .a type count
  | sad type count => exact execSad_conforms s type count
  | sab arg => exact setCur_next_conforms s .b (sext8 arg)
  | saa arg => exact setCur_next_conforms s .a (sext8 arg)
  | sat arg => exact setCur_next_conforms s .t (sext8 arg)
  | sax arg => exact setCur_next_conforms s .x (sext8 arg)
  | aab arg => exact addTo_next_conforms s .b (sext8 arg)
  | aaa arg => exact addTo_next_conforms s .a (sext8 arg)
  | aat arg => exact addTo_next_conforms s .t (sext8 arg)
  | aax arg => exact addTo_next_conforms s .x (sext8 arg)
  | bsetZro bn dr => exact writeBitAndEnd_conforms s bn dr _
  | bsetOne bn dr => exact writeBitAndEnd_conforms s bn dr _
  | bsetBcm bn dr => exact writeBitAndEnd_conforms s bn dr _
  | bsetBac bn dr => exact writeBitAndEnd_conforms s bn dr _
  | bskpZro bn dr => exact skipIf_conforms s _
  | bskpOne bn dr => exact skipIf_conforms s _
  | bskpBcm bn dr => exact skipIf_conforms s _
  | bskpBac bn dr => exact skipIf_conforms s _
  | bstc bn dr => exact writeBitThenK_conforms s bn dr _ _
  | bsta bn dr => exact writeBitThenK_conforms s bn dr _ _
  | bldc bn dr => exact writeK_conforms s _
  | blda bn dr => exact writeK_conforms s _
  | banc bn dr => exact writeK_conforms s _
  | band bn dr => exact writeK_conforms s _
  | borc bn dr => exact writeK_conforms s _
  | bora bn dr => exact writeK_conforms s _

end Sys2Proof.Machine
end

section
/-! EXR executes the instruction of another word (41_control_transfer.md R149): the decoder finds an EXR
only where `execExr` looks for one, so what EXR executes is never an EXR. -/

namespace Sys2Proof

/-! ### Only the extended slot decodes to EXR -/

variable (w : Word) (sr : RegField)

/-- A choice between two values that are both not `x`. -/
theorem ite_ne {α : Type} {c : Prop} [Decidable c] {a b x : α} (ha : a ≠ x) (hb : b ≠ x) :
    (if c then a else b) ≠ x := by
  split <;> assumption

theorem decodeMemory_ne_exr (op : BitVec 5) : decodeMemory w op ≠ some (.exr sr) := by
  unfold decodeMemory
  repeat' apply ite_ne
  all_goals nofun

theorem decodeConditionalJump_ne_exr : decodeConditionalJump w ≠ .exr sr := by
  unfold decodeConditionalJump
  repeat' apply ite_ne
  all_goals nofun

theorem decodeSkip_ne_exr : decodeSkip w ≠ .exr sr := by
  unfold decodeSkip
  repeat' apply ite_ne
  all_goals nofun

theorem decodeRegisterOp_ne_exr : decodeRegisterOp w ≠ .exr sr := by
  unfold decodeRegisterOp
  repeat' apply ite_ne
  all_goals nofun

theorem decodeShift_ne_exr : decodeShift w ≠ .exr sr := by
  unfold decodeShift
  repeat' apply ite_ne
  all_goals nofun

theorem decodeArgument_ne_exr : decodeArgument w ≠ .exr sr := by
  unfold decodeArgument
  repeat' apply ite_ne
  all_goals nofun

theorem decodeBit_ne_exr : decodeBit w ≠ .exr sr := by
  unfold decodeBit
  repeat' apply ite_ne
  all_goals nofun

variable {w sr}

/-- Row 00110 of the extended slot is EXR, and no other row is. -/
theorem decodeExtended_ne_exr (row : field w 6 5 ≠ 0b00110#5) :
    decodeExtended w ≠ .ok (.exr sr) := by
  unfold decodeExtended
  dsimp only
  rw [if_neg row]
  repeat' apply ite_ne
  all_goals simp [decodeSkip_ne_exr]

/-- Outside the extended slot no word is an EXR. -/
theorem decode_ne_exr (slot : field w 11 5 ≠ 0b11000#5) : decode w ≠ .ok (.exr sr) := by
  unfold decode
  dsimp only
  rw [if_neg slot]
  have memory := decodeMemory_ne_exr w sr (field w 11 5)
  generalize decodeMemory w (field w 11 5) = found at memory ⊢
  cases found
  all_goals
    repeat' apply ite_ne
    all_goals simp [decodeConditionalJump_ne_exr, decodeRegisterOp_ne_exr, decodeShift_ne_exr,
      decodeArgument_ne_exr, decodeBit_ne_exr]
  case some i => exact fun e => memory (congrArg some e)

theorem decode_extended (slot : field w 11 5 = 0b11000#5) : decode w = decodeExtended w := by
  unfold decode
  dsimp only
  rw [slot]
  rfl

theorem fields_of_decode_exr (h : decode w = .ok (.exr sr)) :
    field w 11 5 = 0b11000#5 ∧ field w 6 5 = 0b00110#5 := by
  have slot : field w 11 5 = 0b11000#5 := by_contra fun other => decode_ne_exr other h
  refine ⟨slot, by_contra fun other => ?_⟩
  rw [decode_extended slot] at h
  exact decodeExtended_ne_exr other h

/-- A word is its opcode, its row number and its low six bits. -/
theorem word_fields (w : Word) : field w 11 5 ++ field w 6 5 ++ field w 0 6 = w := by
  apply BitVec.eq_of_getLsbD_eq
  intro i hi
  simp only [field, BitVec.getLsbD_append, BitVec.getLsbD_extractLsb']
  interval_cases i <;> simp

/-- A word that decodes to EXR has the upper ten bits of R149. -/
theorem pattern_of_decode_exr (h : decode w = .ok (.exr sr)) : w &&& 0o177700 = 0o140600 := by
  obtain ⟨op, sub⟩ := fields_of_decode_exr h
  rw [← word_fields w, op, sub]
  apply BitVec.eq_of_getLsbD_eq
  intro i hi
  simp only [BitVec.getLsbD_and, BitVec.getLsbD_append]
  interval_cases i <;> simp

end Sys2Proof

namespace Sys2Proof.Machine

variable {s : State} {i j : Instr}

/-- An instruction other than EXR executes itself. -/
theorem State.executed_of_ne_exr (s : State) (i : Instr) (h : ∀ sr, i ≠ .exr sr) :
    s.executed i = some i := by
  cases i
  case exr sr => exact absurd rfl (h sr)
  all_goals rfl

/-- What an instruction executes is no EXR, and has the instruction's meaning. -/
theorem exec_of_executed (h : s.executed i = some j) :
    exec i s = exec j s ∧ ∀ sr, j ≠ .exr sr := by
  by_cases isExr : ∃ sr, i = .exr sr
  · obtain ⟨sr, rfl⟩ := isExr
    simp only [State.executed] at h
    split at h
    · exact absurd h (by simp)
    next other =>
      split at h
      next k decoded =>
        obtain rfl : k = j := by simpa using h
        have ne : ∀ q, k ≠ .exr q := by
          rintro q rfl
          exact other (pattern_of_decode_exr decoded)
        refine ⟨?_, ne⟩
        rw [← executeInRegister_eq_exec k s ne]
        show execExr sr s = _
        simp only [execExr, if_neg other, decoded]
      next => exact absurd h (by simp)
  · have ne : ∀ sr, i ≠ .exr sr := fun sr e => isExr ⟨sr, e⟩
    rw [s.executed_of_ne_exr i ne] at h
    obtain rfl : i = j := by simpa using h
    exact ⟨rfl, ne⟩

/-- An EXR that executes no instruction finds another EXR or an illegal word. -/
theorem exec_of_executed_none (h : s.executed i = none) :
    exec i s = .next (s.setFlag .z true).next ∨ exec i s = .next s.illegalInstruction := by
  by_cases isExr : ∃ sr, i = .exr sr
  · obtain ⟨sr, rfl⟩ := isExr
    show execExr sr s = _ ∨ execExr sr s = _
    simp only [State.executed] at h
    split at h
    next exr => exact .inl (by simp only [execExr, if_pos exr])
    next other =>
      split at h
      · exact absurd h (by simp)
      next illegal => exact .inr (by simp only [execExr, if_neg other, illegal])
  · rw [s.executed_of_ne_exr i fun sr e => isExr ⟨sr, e⟩] at h
    exact absurd h (by simp)

end Sys2Proof.Machine
end

section
/-! What one step can do, said once: inversions of the cycle (30_encoding.md R80, 60_exceptions.md R314,
R340), and the invariant through it. -/

namespace Sys2Proof.Machine

variable {s t : State}

theorem Ends.ne_fault {r : Result} {R : State → Prop} (h : Ends r R) (f : Fault) : r ≠ .fault f := by
  rintro rfl
  exact h

/-! ### Inversions -/

/-- A completed fetch goes on to the word's meaning; a faulted one ends the instruction (R80). -/
theorem fetchExecute_next (h : fetchExecute s = .next t) :
    (∃ w u, s.memFetch (s.cur .p) = .ok w u ∧ executeWord w u = .next t) ∨
      s.memFetch (s.cur .p) = .abandoned t := by
  unfold fetchExecute at h
  cases fetched : s.memFetch (s.cur .p) with
  | ok w u => rw [fetched] at h; exact .inl ⟨w, u, rfl, h⟩
  | abandoned u => rw [fetched] at h; cases h; exact .inr rfl
  | refused r => rw [fetched] at h; cases h

theorem cpuStep_next (h : cpuStep s = .next t) :
    ∃ u, fetchExecute s = .next u ∧ t = u.interruptCheck := by
  unfold cpuStep at h
  cases ended : fetchExecute s with
  | next u => rw [ended] at h; cases h; exact ⟨u, rfl, rfl⟩
  | fault f => rw [ended] at h; cases h
  | refused r => rw [ended] at h; cases h

/-- The CPU's turn by run mode (R340). -/
theorem cpuTurn_next (h : cpuTurn s = .next t) :
    (s.runMode = .run ∧ cpuStep s = .next t) ∨
    (s.runMode = .step ∧ ∃ u, cpuStep s = .next u ∧ t = u.endSingleStep) ∨
    (s.runMode = .stop ∧ t = s) := by
  unfold cpuTurn at h
  cases mode : s.runMode <;> rw [mode] at h
  case run => exact .inl ⟨rfl, h⟩
  case stop => cases h; exact .inr (.inr ⟨rfl, rfl⟩)
  case shutdown => cases h
  case step =>
    cases stepped : cpuStep s with
    | next u => rw [stepped] at h; cases h; exact .inr (.inl ⟨rfl, u, rfl, rfl⟩)
    | fault f => rw [stepped] at h; cases h
    | refused r => rw [stepped] at h; cases h

/-- A step is the CPU's turn or one action of the environment, on the state with the turn taken. -/
theorem step_next (h : step s = .next t) :
    (s.cpusTurn ∧ cpuTurn s.turnTaken = .next t) ∨
      ∃ action rest, s.turns = .env action :: rest ∧ s.turnTaken.act action = .next t := by
  by_cases mine : s.cpusTurn
  · rw [step_of_cpusTurn mine] at h
    exact .inl ⟨mine, h⟩
  · obtain ⟨action, rest, script⟩ : ∃ action rest, s.turns = .env action :: rest := by
      unfold State.cpusTurn at mine
      match turns : s.turns with
      | [] => exact absurd (.inl turns) mine
      | .cpu :: _ => exact absurd (.inr (by rw [turns]; rfl)) mine
      | .env action :: rest => exact ⟨action, rest, rfl⟩
    have taken : s.turnTaken = { s with turns := rest } := by
      unfold State.turnTaken
      rw [script]
      rfl
    refine .inr ⟨action, rest, script, ?_⟩
    unfold step machineTurn at h
    rw [taken]
    split at h
    · cases h
    · rw [script] at h
      exact h

/-! ### The two operations that end a step -/

theorem State.interruptCheck_onlyParts (s : State) : OnlyParts [.pil, .pvl] s s.interruptCheck := by
  unfold State.interruptCheck
  split
  · intro part n
    cases part <;> first | rfl | exact absurd (by decide) n
  · exact (OnlyParts.refl s).mono (List.nil_subset _)

theorem State.endSingleStep_onlyParts (s : State) : OnlyParts [.runMode] s s.endSingleStep := by
  unfold State.endSingleStep
  split
  · exact (OnlyParts.refl s).mono (List.nil_subset _)
  · exact OnlyParts.runMode s _

/-! ### The invariant through a step -/

/-- An illegal word writes IID and PID only (R321). -/
theorem State.illegalInstruction_onlyParts (s : State) :
    OnlyParts causeParts s s.illegalInstruction := s.raiseInt_onlyParts 14 _

theorem State.illegalInstruction_good (g : s.Good) : s.illegalInstruction.Good :=
  s.illegalInstruction_onlyParts.good (by decide) g

/-- Every instruction keeps the invariant. -/
theorem exec_good (g : s.Good) (i : Instr) : Ends (exec i s) State.Good := by
  cases executed : s.executed i with
  | some j =>
    obtain ⟨same, notExr⟩ := exec_of_executed executed
    rw [same]
    exact (exec_conforms s j notExr).mono fun _ k => k.good g
  | none =>
    obtain again | illegal := exec_of_executed_none executed
    · rw [again]
      exact g.congr rfl rfl rfl
    · rw [illegal]
      exact State.illegalInstruction_good g

theorem executeWord_good (g : s.Good) (w : Word) : Ends (executeWord w s) State.Good := by
  unfold executeWord
  split
  · exact exec_good g _
  · exact State.illegalInstruction_good g

/-- An access keeps the invariant once it is known to hold before. -/
theorem State.Good.readAt (g : s.Good) (kind : AccessKind) (loc : Location) :
    (s.readAt kind loc).Reaches State.Good :=
  (s.readAt_good kind loc).mono (fun _ _ k => k g) fun _ k => k g

theorem State.Good.writeAt (g : s.Good) (datum : Datum) (loc : Location) :
    (s.writeAt datum loc).Reaches State.Good :=
  (s.writeAt_good datum loc).mono (fun _ _ k => k g) fun _ k => k g

theorem fetchExecute_good (g : s.Good) : Ends (fetchExecute s) State.Good :=
  Access.ends_andThen (g.readAt _ _) (fun w _ k => executeWord_good k w) fun _ k => k

theorem cpuStep_good (g : s.Good) (h : cpuStep s = .next t) : t.Good := by
  obtain ⟨u, ended, rfl⟩ := cpuStep_next h
  exact u.interruptCheck_onlyParts.good (by decide) ((fetchExecute_good g).of_next ended)

theorem cpuTurn_good (g : s.Good) (h : cpuTurn s = .next t) : t.Good := by
  obtain ⟨-, run⟩ | ⟨-, u, single, rfl⟩ | ⟨-, rfl⟩ := cpuTurn_next h
  · exact cpuStep_good g run
  · exact u.endSingleStep_onlyParts.good (by decide) (cpuStep_good g single)
  · exact g

/-- Every action of a device or the host keeps the invariant (00_scope.md R4). -/
theorem act_good (g : s.Good) (action : EnvAction) : Ends (s.act action) State.Good := by
  cases action with
  | raiseInterrupt level mask => exact g.raiseInt level mask
  | deviceInterrupt level code caller =>
    have chained : State.Good { s with identChain := s.identChain ++ [⟨level, code, caller⟩] } :=
      g.congr rfl rfl rfl
    exact chained.raiseInt level 0
  | physWrite pa v =>
    exact Access.ends_alone ((s.physWrite_post pa v).mono
      (fun _ _ h => h ▸ g.setMem (s.mem.wf_writeWord pa v g.memory)) fun _ h => h.elim)
  | memRead addr apt => exact Access.ends_alone (g.readAt _ _)
  | memWrite addr apt v => exact Access.ends_alone (g.writeAt _ _)
  | memFetch addr apt => exact Access.ends_alone (g.readAt _ _)
  | setStartAddress v =>
    show State.Good (if s.runMode = .stop then s.setReg 0 .p v else s)
    split
    · exact g.congr rfl rfl rfl
    · exact g
  | setRunMode m => exact g.congr rfl rfl rfl
  | setExternal n v => exact g.congr rfl rfl rfl

theorem State.Good.turnTaken (g : s.Good) : s.turnTaken.Good := g.congr rfl rfl rfl

/-! ### SHUTDOWN -/

/-- The instructions that stop the CPU (46_system.md R268, R285). -/
def stopsCpu : Instr → Bool
  | .wait | .opcom => true
  | _ => false

/-- The run mode is written by the unimplemented instructions, WAIT and OPCOM alone. -/
theorem partsWritten_contains_runMode (j : Instr) :
    (partsWritten j).contains .runMode = (unimplementedInstr j || stopsCpu j) := by
  cases j
  case trr n =>
    show List.contains ((if n = 0o1 then [] else if n = 0o3 then [.pcr] else if n = 0o5 then [.iie]
      else if n = 0o6 then [] else if n = 0o7 then [.pie] else [.external]) ++ causeParts) _ = false
    split_ifs <;> rfl
  case mcl n | mst n =>
    show List.contains ((if n = 0o7 then [.pie] else []) ++ causeParts) _ = false
    split <;> rfl
  all_goals rfl

/-- The run mode is unchanged, or STOP. -/
def RunModeKeptOrStop (s t : State) : Prop := t.runMode = s.runMode ∨ t.runMode = .stop

/-- WAIT and OPCOM set the run mode to STOP or leave it. -/
theorem exec_runMode_of_stopsCpu {j : Instr} (h : stopsCpu j = true) (s : State) :
    Ends (exec j s) (RunModeKeptOrStop s) := by
  have trap : (s.raiseCause .privilegedInstruction).runMode = s.runMode :=
    s.raiseInt_onlyParts 14 _ .runMode (by decide)
  cases j
  case wait =>
    show Ends (execWait s) _
    refine ends_privileged (fun _ => ?_) (.inl trap)
    split
    · exact .inl rfl
    · exact .inr rfl
  case opcom =>
    show Ends (execOpcom s) _
    exact ends_privileged (fun _ => Or.inr rfl) (.inl trap)
  all_goals exact absurd h (by simp [stopsCpu])

/-- An implemented instruction does not enter SHUTDOWN. -/
theorem exec_runMode {j : Instr} (implemented : unimplementedInstr j = false)
    (notExr : ∀ sr, j ≠ .exr sr) (s : State) :
    Ends (exec j s) (RunModeKeptOrStop s) := by
  cases stops : stopsCpu j
  · refine (exec_conforms s j notExr).mono fun t k => .inl (k.framed.onlyParts .runMode fun m => ?_)
    have written := partsWritten_contains_runMode j
    rw [implemented, stops, List.contains_iff_mem.mpr m] at written
    exact absurd written (by decide)
  · exact exec_runMode_of_stopsCpu stops s

/-- An instruction that enters SHUTDOWN executes an unimplemented one (R290). -/
theorem executed_of_exec_shutdown {i : Instr} (h : exec i s = .next t) (before : s.runMode ≠ .shutdown)
    (after : t.runMode = .shutdown) : ∃ j, s.executed i = some j ∧ unimplementedInstr j = true := by
  cases executed : s.executed i with
  | none =>
    obtain again | illegal := exec_of_executed_none executed
    · rw [again] at h
      cases h
      exact absurd after before
    · rw [illegal] at h
      cases h
      have same : s.illegalInstruction.runMode = s.runMode :=
        s.illegalInstruction_onlyParts .runMode (by decide)
      exact absurd (same ▸ after) before
  | some j =>
    obtain ⟨same, notExr⟩ := exec_of_executed executed
    refine ⟨j, rfl, ?_⟩
    by_contra other
    rw [same] at h
    obtain kept | stopped := (exec_runMode (by simpa using other) notExr s).of_next h
    · exact before (kept ▸ after)
    · rw [stopped] at after
      cases after

/-- A CPU step that enters SHUTDOWN fetched a word that executes an unimplemented instruction. -/
theorem cpuStep_shutdown (h : cpuStep s = .next t) (before : s.runMode ≠ .shutdown)
    (after : t.runMode = .shutdown) :
    ∃ w u i j, s.memFetch (s.cur .p) = .ok w u ∧ decode w = .ok i ∧ u.executed i = some j ∧
      unimplementedInstr j = true := by
  obtain ⟨v, ended, rfl⟩ := cpuStep_next h
  have checked : v.interruptCheck.runMode = v.runMode := v.interruptCheck_onlyParts .runMode (by decide)
  rw [checked] at after
  obtain ⟨w, u, fetched, executed⟩ | faulted := fetchExecute_next ended
  · have same : u.runMode = s.runMode := (State.memFetch_ok fetched).onlyParts .runMode (by decide)
    rw [← same] at before
    unfold executeWord at executed
    cases decoded : decode w with
    | error e =>
      rw [decoded] at executed
      cases executed
      have kept : u.illegalInstruction.runMode = u.runMode :=
        u.illegalInstruction_onlyParts .runMode (by decide)
      exact absurd (kept ▸ after) before
    | ok i =>
      rw [decoded] at executed
      obtain ⟨j, found, unimplemented⟩ := executed_of_exec_shutdown executed before after
      exact ⟨w, u, i, j, fetched, decoded, found, unimplemented⟩
  · have same : v.runMode = s.runMode :=
      (State.memFetch_abandoned faulted).onlyParts .runMode (by decide)
    exact absurd (same ▸ after) before

end Sys2Proof.Machine
end

section
/-! The statements of 10_state.md. -/

namespace Sys2Proof.Proofs

open Sys2Proof.Machine

/-- Settles O58: the invariant holds through the CPU's turn and through every action of the environment. -/
theorem stepKeepsGood : Obligations.StepKeepsGood := by
  intro s t g h
  obtain ⟨-, turn⟩ | ⟨action, -, -, acted⟩ := step_next h
  · exact cpuTurn_good g.turnTaken turn
  · exact (act_good g.turnTaken action).of_next acted

/-- Settles O57: memory lists nothing, and the page-control registers and PGS are 0. -/
theorem resetIsGood : Obligations.ResetIsGood where
  memory := rfl
  pageControl l := by simp [State.pcrOf, State.reset]
  syndrome := rfl

/-- Settles O24, by the run mode before the step: in RUN and in STEP it is the CPU step that enters
SHUTDOWN, in STOP none does. -/
theorem onlyUnimplementedShutsDown : Obligations.OnlyUnimplementedShutsDown := by
  intro s t mine h after
  rw [step_of_cpusTurn mine] at h
  obtain ⟨mode, run⟩ | ⟨mode, u, single, rfl⟩ | ⟨mode, rfl⟩ := cpuTurn_next h
  · exact cpuStep_shutdown run (by rw [mode]; nofun) after
  · have entered : u.runMode = .shutdown := by
      unfold State.endSingleStep at after
      split at after
      next entered => exact entered
      next => cases after
    exact cpuStep_shutdown single (by rw [mode]; nofun) entered
  · rw [mode] at after
    cases after

/-- Settles O54: the register side of every instruction's frame. -/
theorem registerFrame : Obligations.RegisterFrame := by
  intro i j s t executed h
  obtain ⟨same, notExr⟩ := exec_of_executed executed
  obtain ⟨reg, flag, bank, scratch⟩ :=
    ((exec_conforms s j notExr).of_next (same ▸ h)).framed.registers
  exact ⟨reg, flag, fun l other named => bank l other (by simpa using named), scratch⟩

/-- Settles O55: the system side of every instruction's frame. -/
theorem systemStateFrame : Obligations.SystemStateFrame := by
  intro i j s executed
  obtain ⟨same, notExr⟩ := exec_of_executed executed
  have conforms := exec_conforms s j notExr
  rw [same]
  exact ⟨fun t h => (conforms.of_next h).framed.onlyParts, conforms.ne_fault⟩

end Sys2Proof.Proofs
end

section
/-! STS bit by bit (10_state.md R13), and the internal registers by number (46_system.md R252 to R256). -/

namespace Sys2Proof.Machine

variable {s t : State}

/-! ### STS (10_state.md R13, R14) -/

/-- STS on a level is IONI : PONI : SEXI : 1 : PIL above the level's flags. -/
theorem State.sts_bits (s : State) (l : Level) :
    (s.sts l).getLsbD 15 = s.ioni ∧ (s.sts l).getLsbD 14 = s.poni ∧ (s.sts l).getLsbD 13 = s.sexi ∧
      (s.sts l).getLsbD 12 = true := by
  simp only [State.sts, State.stsh, BitVec.getLsbD_append]
  simp

theorem State.sts_pil (s : State) (l : Level) : (s.sts l).extractLsb' 8 4 = s.pil := by
  apply BitVec.eq_of_getLsbD_eq
  intro i hi
  simp only [State.sts, State.stsh, BitVec.getLsbD_extractLsb', BitVec.getLsbD_append]
  interval_cases i <;> simp

theorem State.sts_flags (s : State) (l : Level) : (s.sts l).extractLsb' 0 8 = s.flags l := by
  apply BitVec.eq_of_getLsbD_eq
  intro i hi
  simp only [State.sts, BitVec.getLsbD_extractLsb', BitVec.getLsbD_append]
  interval_cases i <;> simp

/-! ### The words of format M4 (30_encoding.md R88) -/

theorem decode_internal (n : BitVec 4) :
    decode (0o150000 ||| n.zeroExtend 16) = .ok (.tra n) ∧
    decode (0o150100 ||| n.zeroExtend 16) = .ok (.trr n) ∧
    decode (0o150200 ||| n.zeroExtend 16) = .ok (.mcl n) ∧
    decode (0o150300 ||| n.zeroExtend 16) = .ok (.mst n) := by
  revert n
  decide

/-! ### TRA, TRR, MCL and MST with their ends written out -/

/-- `next` from a state whose P is still that of the instruction. -/
theorem State.next_eq_jump (h : t.cur .p = s.cur .p) : t.next = t.jump (s.cur .p + 1) := by
  rw [State.next, h]

theorem exec_tra (h : s.mayRunPrivileged) {n : BitVec 4} (notIic : n ≠ 0o5) :
    exec (.tra n) s = .next ((s.setCur .a (s.internalRead n)).jump (s.cur .p + 1)) := by
  show execTra n s = _
  rw [execTra, privileged_eq_of_mayRun h]
  dsimp only
  rw [if_neg notIic, State.next_eq_jump (s := s) (by simp)]

/-- Reading IIC clears IID (R253). -/
theorem exec_tra_iic (h : s.mayRunPrivileged) :
    exec (.tra 0o5) s = .next (({ s with iid := 0 }.setCur .a
      ((highestBit s.iid).zeroExtend 16)).jump (s.cur .p + 1)) := by
  rw [← State.next_eq_jump (s := s) (by rw [State.cur_setCur]; rfl)]
  show execTra 0o5 s = _
  rw [execTra, privileged_eq_of_mayRun h]
  rfl

/-- TRA of a register outside the block reads what that register presents (R252). -/
theorem State.internalRead_external {n : BitVec 4}
    (h : n ∈ [(0o0 : BitVec 4), 0o2, 0o10, 0o11, 0o12, 0o13, 0o15, 0o16, 0o17]) :
    s.internalRead n = s.external n ∧ n ≠ 0o5 := by
  fin_cases h <;> exact ⟨rfl, by decide⟩

theorem State.cur_p_internalWrite (s : State) (n : BitVec 4) : (s.internalWrite n).cur .p = s.cur .p := by
  unfold State.internalWrite
  split_ifs
  · simp
  all_goals rfl

theorem exec_trr (h : s.mayRunPrivileged) (n : BitVec 4) :
    exec (.trr n) s = .next ((s.internalWrite n).jump (s.cur .p + 1)) := by
  show execTrr n s = _
  rw [execTrr, privileged_eq_of_mayRun h, State.next_eq_jump (s.cur_p_internalWrite n)]

theorem State.internalWrite_external {n : BitVec 4} (h : n ∉ [(0o1 : BitVec 4), 0o3, 0o5, 0o6, 0o7]) :
    s.internalWrite n = { s with ext := Config.extRegWrite n (s.cur .a) s.ext } := by
  simp only [List.mem_cons, List.not_mem_nil, or_false, not_or] at h
  obtain ⟨n1, n3, n5, n6, n7⟩ := h
  simp only [State.internalWrite, if_neg n1, if_neg n3, if_neg n5, if_neg n6, if_neg n7]

theorem State.cur_p_maskedWrite (s : State) (n : BitVec 4) (f : BitVec 8) (pid pie : Word) :
    (s.maskedWrite n f pid pie).cur .p = s.cur .p := by
  unfold State.maskedWrite
  split_ifs
  · simp
  all_goals rfl

theorem State.maskedWrite_other {n : BitVec 4} (h : n ∉ [(0o1 : BitVec 4), 0o6, 0o7]) (f : BitVec 8)
    (pid pie : Word) : s.maskedWrite n f pid pie = s := by
  simp only [List.mem_cons, List.not_mem_nil, or_false, not_or] at h
  obtain ⟨n1, n6, n7⟩ := h
  simp only [State.maskedWrite, if_neg n1, if_neg n6, if_neg n7]

theorem exec_mcl (h : s.mayRunPrivileged) (n : BitVec 4) :
    exec (.mcl n) s = .next ((s.maskedWrite n (s.curFlags &&& ~~~((s.cur .a).extractLsb' 0 8))
      (s.pid &&& ~~~(s.cur .a)) (s.pie &&& ~~~(s.cur .a))).jump (s.cur .p + 1)) := by
  rw [← State.next_eq_jump (s.cur_p_maskedWrite n _ _ _)]
  show execMcl n s = _
  rw [execMcl, privileged_eq_of_mayRun h]
  rfl

theorem exec_mst (h : s.mayRunPrivileged) (n : BitVec 4) :
    exec (.mst n) s = .next ((s.maskedWrite n (s.curFlags ||| (s.cur .a).extractLsb' 0 8)
      (s.pid ||| s.cur .a) (s.pie ||| s.cur .a)).jump (s.cur .p + 1)) := by
  rw [← State.next_eq_jump (s.cur_p_maskedWrite n _ _ _)]
  show execMst n s = _
  rw [execMst, privileged_eq_of_mayRun h]
  rfl

end Sys2Proof.Machine

namespace Sys2Proof.Proofs

open Sys2Proof.Machine

/-- Settles O47, register by register from the lemmas on `exec` of TRA, TRR, MCL and MST. -/
theorem internalRegisters : Obligations.InternalRegisters := by
  intro s n may
  obtain ⟨tra, trr, mcl, mst⟩ := decode_internal n
  refine ⟨fun l => ?sts, rfl, ⟨rfl, rfl, rfl, rfl, rfl, rfl, rfl, rfl⟩, tra, trr, mcl, mst,
    exec_tra may (by decide), exec_tra may (by decide), exec_tra may (by decide), ?iic,
    exec_tra may (by decide), exec_tra may (by decide), exec_tra may (by decide), fun out => ?_,
    exec_trr may _, exec_trr may _, exec_trr may _, exec_trr may _, exec_trr may _, fun out => ?_,
    exec_mcl may _, exec_mcl may _, exec_mcl may _, exec_mst may _, exec_mst may _, exec_mst may _,
    fun out => ⟨?_, ?_⟩⟩
  case sts =>
    obtain ⟨ioni, poni, sexi, n100⟩ := s.sts_bits l
    exact ⟨ioni, poni, sexi, n100, s.sts_pil l, s.sts_flags l, rfl⟩
  case iic =>
    refine ⟨highestBit s.iid, fun none => ?_, highestBit_spec s.iid, exec_tra_iic may⟩
    rw [none]
    exact highestBit_zero
  · obtain ⟨external, notIic⟩ := s.internalRead_external out
    rw [exec_tra may notIic, external]
  · rw [exec_trr may n, State.internalWrite_external out]
  · rw [exec_mcl may n, State.maskedWrite_other out]
  · rw [exec_mst may n, State.maskedWrite_other out]

end Sys2Proof.Proofs
end

section
/-! Where an access goes and what it does there: one equation for each outcome of `locate`, `readAt` and
`writeAt` (20_memory.md R45 to R62). -/

namespace Sys2Proof.Machine

variable {s : State} {addr : Word} {apt : Bool}

/-! ### The three ways an access can go (R45, R46, R60) -/

/-- The level cannot see the shadow window at any address (R60). -/
def State.windowHidden (s : State) : Prop := s.poni = true ∧ s.ring ≠ 3

theorem State.isShadow_eq_true (above : s.shadowBase ≤ addr) (visible : s.poni = false ∨ s.ring = 3) :
    s.isShadow addr = true := by
  unfold State.isShadow
  rw [decide_eq_true above, Bool.true_and]
  rcases visible with h | h <;> simp [h]

theorem State.isShadow_eq_false (h : addr < s.shadowBase ∨ s.windowHidden) : s.isShadow addr = false := by
  unfold State.isShadow
  rcases h with below | ⟨paging, ring⟩
  · rw [decide_eq_false (BitVec.not_le.mpr below), Bool.false_and]
  · rw [paging, show (s.ring == 3) = false from beq_false_of_ne ring]
    exact Bool.and_false _

theorem State.locate_of_isShadow (h : s.isShadow addr = true) (kind : AccessKind) (apt : Bool) :
    s.locate kind addr apt = s.shadowLocation addr := if_pos h

theorem State.locate_untranslated (off : s.poni = false) (below : addr < s.shadowBase)
    (kind : AccessKind) (apt : Bool) :
    s.locate kind addr apt = .physical (addr.zeroExtend 24) none := by
  unfold State.locate
  rw [State.isShadow_eq_false (.inl below), off]
  rfl

theorem State.locate_translated (on : s.poni = true) (h : addr < s.shadowBase ∨ s.ring ≠ 3)
    (kind : AccessKind) (apt : Bool) : s.locate kind addr apt = s.translate kind addr apt := by
  unfold State.locate
  rw [State.isShadow_eq_false (h.imp_right (⟨on, ·⟩)), on]
  rfl

/-! ### The translation of R52, check by check -/

/-- The entry that a translation reads. -/
def State.entryFor (s : State) (addr : Word) (apt : Bool) : Pte :=
  s.pte (s.selectTable apt) (addr.extractLsb' 10 6)

theorem State.translate_pageFault (noPermit : (s.entryFor addr apt).extractLsb' 29 3 = 0)
    (kind : AccessKind) :
    s.translate kind addr apt = .fault .pageFault (s.selectTable apt) (addr.extractLsb' 10 6) :=
  if_pos noPermit

theorem State.translate_ringViolation (permits : (s.entryFor addr apt).extractLsb' 29 3 ≠ 0)
    (above : s.ring < (s.entryFor addr apt).extractLsb' 24 2) (kind : AccessKind) :
    s.translate kind addr apt = .fault .ringViolation (s.selectTable apt) (addr.extractLsb' 10 6) :=
  (if_neg permits).trans (if_pos above)

theorem State.translate_protectionViolation (permits : (s.entryFor addr apt).extractLsb' 29 3 ≠ 0)
    (within : ¬ s.ring < (s.entryFor addr apt).extractLsb' 24 2) {kind : AccessKind}
    (denied : (s.entryFor addr apt).getLsbD (permitBit kind) = false) :
    s.translate kind addr apt =
      .fault .protectionViolation (s.selectTable apt) (addr.extractLsb' 10 6) :=
  (if_neg permits).trans ((if_neg within).trans (if_pos denied))

theorem State.translate_physical (permits : (s.entryFor addr apt).extractLsb' 29 3 ≠ 0)
    (within : ¬ s.ring < (s.entryFor addr apt).extractLsb' 24 2) {kind : AccessKind}
    (permitted : (s.entryFor addr apt).getLsbD (permitBit kind) = true) :
    s.translate kind addr apt =
      .physical (s.pageNumber (s.entryFor addr apt) ++ addr.extractLsb' 0 10)
        (some (s.selectTable apt, addr.extractLsb' 10 6)) :=
  (if_neg permits).trans ((if_neg within).trans (if_neg (by
    show ¬ (s.entryFor addr apt).getLsbD (permitBit kind) = false
    rw [permitted]
    decide)))

/-- With SEXI = 1 the page number is 14 bits of the entry (R52). -/
theorem State.pageNumber_sexi (h : s.sexi = true) (e : Pte) : s.pageNumber e = e.extractLsb' 0 14 := by
  unfold State.pageNumber
  rw [if_pos h]

/-- With SEXI = 0 the page number is 9 bits of the entry (R52). -/
theorem State.pageNumber_normal (h : s.sexi = false) (e : Pte) :
    s.pageNumber e = 0#5 ++ e.extractLsb' 0 9 := by
  unfold State.pageNumber
  rw [h]
  exact BitVec.setWidth_eq_append (by decide)

/-! ### What is done at a place -/

theorem State.mark_of_ne_write {kind : AccessKind} (h : kind ≠ .write) (t : BitVec 2) (i : BitVec 6) :
    s.mark kind (some (t, i)) = s.setPte t i (s.pte t i ||| 0x08000000) := by
  simp only [State.mark, if_neg h, setUsed_eq]

theorem State.mark_write (s : State) (t : BitVec 2) (i : BitVec 6) :
    s.mark .write (some (t, i)) = s.setPte t i (s.pte t i ||| 0x18000000) := by
  simp only [State.mark, if_true, setUsedWritten_eq]

theorem State.readAt_physical {pa : PhysAddr} (h : pa.toNat < s.physWords) (kind : AccessKind)
    (entry : Option (BitVec 2 × BitVec 6)) :
    s.readAt kind (.physical pa entry) = .ok (s.phys pa) (s.mark kind entry) :=
  if_pos (State.installed_eq_true h)

theorem State.writeAt_physical {pa : PhysAddr} (h : pa.toNat < s.physWords) (datum : Datum)
    (entry : Option (BitVec 2 × BitVec 6)) :
    s.writeAt datum (.physical pa entry) =
      .ok () { s.mark .write entry with mem := s.mem.store pa datum } := by
  have same : (s.mark .write entry).mem = s.mem := (s.mark_readStep .write entry).mem
  simp only [State.writeAt, if_pos (State.installed_eq_true h), same]

theorem State.readAt_refused {pa : PhysAddr} (h : s.physWords ≤ pa.toNat) (kind : AccessKind)
    (entry : Option (BitVec 2 × BitVec 6)) :
    s.readAt kind (.physical pa entry) = .refused .beyondPhysWords := by
  simp only [State.readAt, State.installed_eq_false h]
  rfl

theorem State.writeAt_refused {pa : PhysAddr} (h : s.physWords ≤ pa.toNat) (datum : Datum)
    (entry : Option (BitVec 2 × BitVec 6)) :
    s.writeAt datum (.physical pa entry) = .refused .beyondPhysWords := by
  simp only [State.writeAt, State.installed_eq_false h]
  rfl

/-- A byte written in the window is the word written in which that byte is replaced (R61, R62). -/
theorem State.writeAt_byte_shadow (s : State) (sel : Bool) (b : Byte) (t : BitVec 2) (i : BitVec 6)
    (view : ShadowView) :
    s.writeAt (.byte sel b) (.shadow t i view) =
      s.writeAt (.word ((Datum.byte sel b).over (shadowRead (s.pte t i) view))) (.shadow t i view) := rfl

/-- The syndrome is the fetch bit, the permit bit, and the table and page (10_state.md R20). -/
theorem syndrome_eq (kind : AccessKind) (cause : MmuFault) (t : BitVec 2) (vpn : BitVec 6) :
    syndrome kind cause t vpn =
      (if kind = .fetch then 0o100000 else 0) |||
        (if cause = .ringViolation then 0 else 0o040000) ||| (t ++ vpn).zeroExtend 16 := by
  have place (high : BitVec 8) : high ++ t ++ vpn = (high ++ 0#8) ||| (t ++ vpn).zeroExtend 16 := by
    apply BitVec.eq_of_getLsbD_eq
    intro i hi
    simp only [BitVec.getLsbD_append, BitVec.getLsbD_or, BitVec.getLsbD_setWidth]
    interval_cases i <;> simp
  rw [syndrome, place]
  cases kind <;> cases cause <;> rfl

/-- The mask of a fault: cause 3 for a page fault, else 2 (60_exceptions.md R323). -/
theorem MmuFault.mask_toCause (c : MmuFault) :
    c.toCause.mask = if c = .pageFault then 0o10 else 0o4 := by cases c <;> rfl

/-! ### The address of an entry in the window (R61, R62) -/

/-- The window of one word for each entry, at addresses made of table and page. -/
theorem State.shadowLocation_narrow (h : s.sexi = false) (t : BitVec 2) (i : BitVec 6) :
    s.shadowLocation (0o177400 + (t ++ i).zeroExtend 16) = .shadow t i .narrow := by
  have offset : 0o177400 + (t ++ i).zeroExtend 16 - s.shadowBase = (t ++ i).zeroExtend 16 := by
    rw [State.shadowBase, h]
    exact add_sub_cancel_left _ _
  simp only [State.shadowLocation, offset, h, Bool.false_eq_true, if_false]
  rw [BitVec.extractLsb'_setWidth_of_le (by decide), BitVec.extractLsb'_setWidth_of_le (by decide),
    BitVec.extractLsb'_append_eq_left, BitVec.extractLsb'_append_eq_right]

/-- The window of two words for each entry: an even address names the high half, an odd one the low. -/
theorem State.shadowLocation_wide (h : s.sexi = true) (t : BitVec 2) (i : BitVec 6) (c : BitVec 1) :
    s.shadowLocation (0o177000 + (t ++ i ++ c).zeroExtend 16) =
      .shadow t i (if c.getLsbD 0 then .low else .high) := by
  have offset : 0o177000 + (t ++ i ++ c).zeroExtend 16 - s.shadowBase = (t ++ i ++ c).zeroExtend 16 := by
    rw [State.shadowBase, h]
    exact add_sub_cancel_left _ _
  have table : ((t ++ i ++ c).zeroExtend 16).extractLsb' 7 2 = t := by
    rw [BitVec.extractLsb'_setWidth_of_le (by decide), BitVec.extractLsb'_append_eq_of_le (by decide),
      BitVec.extractLsb'_append_eq_left]
  have page : ((t ++ i ++ c).zeroExtend 16).extractLsb' 1 6 = i := by
    rw [BitVec.extractLsb'_setWidth_of_le (by decide), BitVec.extractLsb'_append_eq_of_le (by decide),
      BitVec.extractLsb'_append_eq_right]
  have half : ((t ++ i ++ c).zeroExtend 16).getLsbD 0 = c.getLsbD 0 := by
    rw [BitVec.getLsbD_setWidth, BitVec.getLsbD_append]
    rfl
  simp only [State.shadowLocation, offset, h, if_true, table, page, half]

/-- The address after that of an entry's high half is that of its low half. -/
theorem shadowAddress_succ (k : BitVec 8) :
    (0o177000 + (k ++ 0#1).zeroExtend 16 + 1 : Word) = 0o177000 + (k ++ 1#1).zeroExtend 16 := by
  revert k
  decide

theorem State.isShadow_narrow (h : s.sexi = false) (visible : s.poni = false ∨ s.ring = 3)
    (k : BitVec 8) : s.isShadow (0o177400 + k.zeroExtend 16) = true := by
  refine State.isShadow_eq_true ?_ visible
  rw [State.shadowBase, h]
  have := k.isLt
  show (0o177400 : Word) ≤ _
  bv_omega

theorem State.isShadow_wide (h : s.sexi = true) (visible : s.poni = false ∨ s.ring = 3)
    (k : BitVec 9) : s.isShadow (0o177000 + k.zeroExtend 16) = true := by
  refine State.isShadow_eq_true ?_ visible
  rw [State.shadowBase, h]
  have := k.isLt
  show (0o177000 : Word) ≤ _
  bv_omega

end Sys2Proof.Machine
end

section
/-! The statements of 20_memory.md on physical memory, translation and the window. -/

namespace Sys2Proof.Machine

theorem Memory.readWord_high (m : Memory) (pa : PhysAddr) :
    (m.readWord pa).extractLsb' 8 8 = m.readByte (highByteAddr pa) := BitVec.extractLsb'_append_eq_left

theorem Memory.readWord_low (m : Memory) (pa : PhysAddr) :
    (m.readWord pa).extractLsb' 0 8 = m.readByte (lowByteAddr pa) := BitVec.extractLsb'_append_eq_right

variable {s : State} {addr : Word} {apt : Bool}

/-- Every access to a visible window address, whatever it asks for (R60 to R62). -/
theorem State.shadow_accesses {t : BitVec 2} {i : BitVec 6} {view : ShadowView}
    (visible : s.isShadow addr = true) (place : s.shadowLocation addr = .shadow t i view) (apt sel : Bool)
    (v : Word) (b : Byte) :
    s.memRead addr apt = .ok (shadowRead (s.pte t i) view) s ∧
    s.memFetchFrom addr apt = .ok (shadowRead (s.pte t i) view) s ∧
    s.memWriteByte addr apt sel b =
      s.memWrite addr apt ((Datum.byte sel b).over (shadowRead (s.pte t i) view)) ∧
    s.memWrite addr apt v = .ok () (s.setPte t i (shadowWrite (s.pte t i) v view)) := by
  have located (kind : AccessKind) : s.locate kind addr apt = .shadow t i view :=
    (State.locate_of_isShadow visible kind apt).trans place
  unfold State.memRead State.memFetchFrom State.memWriteByte State.memWrite
  simp only [located]
  exact ⟨rfl, rfl, rfl, rfl⟩

/-- A fault of an access in the words of 10_state.md R20 and 60_exceptions.md R323. -/
theorem State.mmuFault_eq (s : State) (kind : AccessKind) (c : MmuFault) (t : BitVec 2) (vpn : BitVec 6) :
    s.mmuFault kind c t vpn =
      { s with
        pgs := (if kind = AccessKind.fetch then 0o100000 else 0) |||
          (if c = MmuFault.ringViolation then 0 else 0o040000) ||| (t ++ vpn).zeroExtend 16 }.raiseInt 14
        (if c = MmuFault.pageFault then 0o10 else 0o4) := by
  rw [State.mmuFault, State.raiseCause, syndrome_eq, MmuFault.mask_toCause]

end Sys2Proof.Machine

namespace Sys2Proof.Proofs

open Sys2Proof.Machine

/-- Settles O7, from the two read-after-write lemmas of memory. -/
theorem physicalReadAfterWrite : Obligations.PhysicalReadAfterWrite := by
  intro m pa qa v sel b
  rw [Memory.readWord_high, Memory.readWord_low]
  exact ⟨m.readWord_writeWord pa qa v, m.readWord_writeSelected pa qa sel b⟩

/-- Settles O8: `locate` gives the word of the same number, with no entry to mark. -/
theorem untranslatedAccess : Obligations.UntranslatedAccess := by
  intro s addr v apt sel b off below installed
  have number : (addr.zeroExtend 24 : PhysAddr).toNat = addr.toNat :=
    BitVec.toNat_setWidth_of_le (by decide)
  have present : (addr.zeroExtend 24 : PhysAddr).toNat < s.physWords := number ▸ installed
  unfold State.memRead State.memFetchFrom State.memWrite State.memWriteByte
  simp only [State.locate_untranslated off below]
  exact ⟨State.readAt_physical present _ none, State.readAt_physical present _ none,
    State.writeAt_physical present (.word v) none, State.writeAt_physical present (.byte sel b) none⟩

/-- Settles O9: `locate` is `translate` there, whose checks stand in the order of R54. -/
theorem translationChecksInOrder : Obligations.TranslationChecksInOrder := by
  intro s kind addr apt on outside t vpn e permit noPermit ringAbove
  have table : s.selectTable apt = t := s.selectTable_eq apt
  have entry : s.entryFor addr apt = e := by rw [State.entryFor, table]
  have empty : (s.entryFor addr apt).extractLsb' 29 3 = 0 ↔ noPermit := entry ▸ permits_eq_zero e
  have above : s.ring < (s.entryFor addr apt).extractLsb' 24 2 ↔ ringAbove := by
    rw [entry]
    exact BitVec.lt_def
  have allowed : (s.entryFor addr apt).getLsbD (permitBit kind) = permit := by
    rw [entry]
    cases kind <;> rfl
  rw [State.locate_translated on outside, ← table]
  refine ⟨fun closed => State.translate_pageFault (empty.mpr closed) kind,
    fun permits higher => State.translate_ringViolation (mt empty.mp permits) (above.mpr higher) kind,
    fun permits within denied => State.translate_protectionViolation (mt empty.mp permits)
      (mt above.mp within) (allowed.trans denied),
    fun permits within granted => ⟨s.pageNumber e ++ addr.extractLsb' 0 10, ?_,
      BitVec.extractLsb'_append_eq_right, fun sexi => ?_, fun sexi => ?_⟩⟩
  · rw [State.translate_physical (mt empty.mp permits) (mt above.mp within) (allowed.trans granted), entry]
  · rw [State.pageNumber_sexi sexi]
    exact BitVec.extractLsb'_append_eq_left
  · rw [State.pageNumber_normal sexi]
    constructor
    · rw [BitVec.extractLsb'_append_eq_of_le (by decide)]
      exact BitVec.extractLsb'_append_eq_right
    · rw [BitVec.extractLsb'_append_eq_of_le (by decide)]
      exact BitVec.extractLsb'_append_eq_left

/-- Settles O10, from what `readAt` and `writeAt` do at a physical place. -/
theorem successfulAccess : Obligations.SuccessfulAccess := by
  intro s addr v apt sel b pa t i
  unfold State.memRead State.memWrite State.memWriteByte
  refine ⟨rfl, fun present => ⟨fun located => ?_, fun located => ?_, fun located => ?_⟩,
    fun absent entry => ⟨fun located => ?_, fun located => ?_, fun located => ?_⟩⟩
  · rw [located, State.readAt_physical present, State.mark_of_ne_write (by decide)]
  · rw [State.memFetchFrom, located, State.readAt_physical present, State.mark_of_ne_write (by decide)]
  · rw [located, State.writeAt_physical present, State.writeAt_physical present, State.mark_write]
    exact ⟨rfl, rfl⟩
  · rw [located, State.readAt_refused absent]
  · rw [State.memFetchFrom, located, State.readAt_refused absent]
  · rw [located, State.writeAt_refused absent, State.writeAt_refused absent]
    exact ⟨rfl, rfl⟩

/-- Settles O11: every access that faults ends in `mmuFault`. -/
theorem faultRecordsSyndrome : Obligations.FaultRecordsSyndrome := by
  intro s addr v apt sel b cause t vpn pm place mask
  have recorded (kind : AccessKind) : s.mmuFault kind cause t vpn =
      { s with pgs := (if kind = AccessKind.fetch then 0o100000 else 0) ||| pm ||| place }.raiseInt 14
        mask := s.mmuFault_eq kind cause t vpn
  have data (kind : AccessKind) (noFetch : kind ≠ .fetch) : s.mmuFault kind cause t vpn =
      { s with pgs := pm ||| place }.raiseInt 14 mask := by
    rw [recorded, if_neg noFetch, show 0 ||| pm = pm from BitVec.zero_or]
  refine ⟨fun located => ?_, fun located => ⟨?_, ?_⟩, fun located => ?_⟩
  · rw [State.memRead, located, State.readAt, data .read (by decide)]
  · rw [State.memWrite, located, State.writeAt, data .write (by decide)]
  · rw [State.memWriteByte, located, State.writeAt, data .write (by decide)]
  · rw [State.memFetchFrom, located, State.readAt, recorded, if_pos rfl]

/-- Settles O12: in each view the address gives back the table, the page and the half of its entry. -/
theorem shadowWindow : Obligations.ShadowWindow := by
  intro s apt sel v b t i withByte visible
  constructor
  · intro narrow addr e view
    obtain ⟨read, fetch, byte, write⟩ := State.shadow_accesses
      (State.isShadow_narrow narrow visible (t ++ i)) (State.shadowLocation_narrow narrow t i) apt sel v b
    obtain ⟨⟨permits, b26⟩, fields⟩ := shadowWrite_narrow v e
    exact ⟨read, fetch, byte, _, write, permits, b26, fields⟩
  · intro wide addr e
    have accesses (c : BitVec 1) := State.shadow_accesses
      (State.isShadow_wide wide visible (t ++ i ++ c)) (State.shadowLocation_wide wide t i c) apt sel v b
    obtain ⟨read, fetch, byte, write⟩ := accesses 0
    obtain ⟨read', fetch', byte', write'⟩ := accesses 1
    have next : addr + 1 = 0o177000 + (t ++ i ++ 1#1).zeroExtend 16 := shadowAddress_succ (t ++ i)
    rw [next]
    exact ⟨read, read', fetch, fetch', byte, byte', write, write'⟩

end Sys2Proof.Proofs
end

section
/-! The bytes of memory and the page-table entries that accesses change (20_memory.md R55, R57, R58, R60). -/

namespace Sys2Proof.Machine

variable {s t u : State} {B C : List Nat} {α : Type}

/-! ### Bytes outside a list -/

/-- Two states agree on every byte of memory outside a list. -/
def SameBytes (bytes : List Nat) (s t : State) : Prop :=
  ∀ a, a ∉ bytes → t.mem.readByte a = s.mem.readByte a

theorem SameBytes.of_mem (h : t.mem = s.mem) : SameBytes B s t := fun _ _ => by rw [h]

theorem SameBytes.trans (h : SameBytes B s t) (k : SameBytes B t u) : SameBytes B s u :=
  fun a n => (k a n).trans (h a n)

theorem SameBytes.mono (h : SameBytes B s t) (w : B ⊆ C) : SameBytes C s t :=
  fun a n => h a fun m => n (w m)

/-- The bytes of a physical word that a datum is stored to. -/
def Datum.bytes (pa : PhysAddr) : Datum → List Nat
  | .word _ => wordBytes pa
  | .byte sel _ => [selectedByte pa sel]

/-- The bytes that a datum written at a place is stored to. -/
def Location.bytes (datum : Datum) : Location → List Nat
  | .physical pa _ => datum.bytes pa
  | _ => []

theorem Memory.readByte_store (m : Memory) (pa : PhysAddr) (datum : Datum) {a : Nat}
    (h : a ∉ datum.bytes pa) : (m.store pa datum).readByte a = m.readByte a := by
  cases datum with
  | word v =>
    have apart : a ≠ highByteAddr pa ∧ a ≠ lowByteAddr pa := by
      simpa [Datum.bytes, wordBytes] using h
    exact (m.readByte_writeWord pa v a).trans ((if_neg apart.2).trans (if_neg apart.1))
  | byte sel v =>
    have apart : a ≠ selectedByte pa sel := fun e => h (List.mem_singleton.mpr e)
    exact (m.readByte_writeByte _ a v).trans (if_neg apart)

theorem State.setPhys_sameBytes (s : State) (pa : PhysAddr) (v : Word) :
    SameBytes (wordBytes pa) s (s.setPhys pa v) := fun _ n => s.mem.readByte_store pa (.word v) n

/-! ### What a store may change -/

/-- A change of memory within a list of bytes, and, on a level that cannot see the shadow window, of the
page tables by marker bits only. -/
structure Stores (bytes : List Nat) (s t : State) : Prop where
  memory : SameBytes bytes s t
  tables : s.windowHidden → Marked s t
  hidden : s.windowHidden → t.windowHidden

namespace Stores

theorem trans (h : Stores B s t) (k : Stores B t u) : Stores B s u :=
  ⟨h.memory.trans k.memory, fun w => (h.tables w).trans (k.tables (h.hidden w)),
    fun w => k.hidden (h.hidden w)⟩

theorem mono (h : Stores B s t) (w : B ⊆ C) : Stores C s t := ⟨h.memory.mono w, h.tables, h.hidden⟩

theorem of_banks (s : State) (b : Vector Bank 16) : Stores B s { s with banks := b } :=
  ⟨.of_mem rfl, fun _ => .of_pt rfl, id⟩

/-- The rest of a meaning after a change. -/
theorem ends_after {r : Result} (h : Stores B s t) (rest : Ends r (Stores B t)) : Ends r (Stores B s) :=
  rest.mono fun _ k => h.trans k

/-- A meaning after an access. -/
theorem andThen {x : Access α} {k : α → State → Result} (access : x.Reaches (Stores B s)) (w : B ⊆ C)
    (rest : ∀ v t, x = .ok v t → Ends (k v t) (Stores C t)) : Ends (x.andThen k) (Stores C s) := by
  cases x with
  | ok v t => exact ends_after (Stores.mono access w) (rest v t rfl)
  | abandoned t => exact Stores.mono access w
  | refused r => trivial

end Stores

/-- What is known of an access, joined. -/
theorem Access.Reaches.stores {x : Access α} (memory : x.Reaches (SameBytes B s))
    (tables : s.windowHidden → x.Reaches (Marked s)) (step : x.Reaches (WriteFaultStep s)) :
    x.Reaches (Stores B s) := by
  have hidden {t : State} (h : WriteFaultStep s t) (w : s.windowHidden) : t.windowHidden := by
    obtain ⟨_, _, _, _, _, rfl⟩ := h
    exact w
  cases x with
  | ok v t => exact ⟨memory, tables, hidden step⟩
  | abandoned t => exact ⟨memory, tables, hidden step⟩
  | refused r => trivial

theorem ReadStep.toFault (h : ReadStep s t) : FaultStep s t := by
  obtain ⟨_, rfl⟩ := h
  exact ⟨_, _, _, _, rfl⟩

theorem WriteStep.toFault (h : WriteStep s t) : WriteFaultStep s t := by
  obtain ⟨_, _, rfl⟩ := h
  exact ⟨_, _, _, _, _, rfl⟩

/-! ### Accesses -/

theorem State.memRead_marked (s : State) (addr : Word) (apt : Bool) :
    (s.memRead addr apt).Reaches (Marked s) := s.readAt_marked _ _

theorem State.memRead_stores (s : State) (addr : Word) (apt : Bool) :
    (s.memRead addr apt).Reaches (Stores [] s) :=
  Access.Reaches.stores
    ((s.memRead_post addr apt).mono (fun _ _ h => .of_mem h.mem) fun _ h => .of_mem h.mem)
    (fun _ => s.memRead_marked addr apt)
    ((s.memRead_post addr apt).mono (fun _ _ h => h.toFault.toWrite) fun _ h => h.toWrite)

theorem State.writeAt_sameBytes (s : State) (datum : Datum) (loc : Location) :
    (s.writeAt datum loc).Reaches (SameBytes (loc.bytes datum) s) := by
  cases loc with
  | shadow t i view => exact SameBytes.of_mem rfl
  | physical pa entry =>
    simp only [State.writeAt]
    split
    · intro a n
      have same : (s.mark .write entry).mem = s.mem := (s.mark_readStep .write entry).mem
      exact (Memory.readByte_store _ pa datum n).trans (by rw [same])
    · trivial
  | fault c t vpn => exact SameBytes.of_mem (s.mmuFault_faultStep .write c t vpn).mem

theorem State.translate_ne_shadow (s : State) (kind : AccessKind) (addr : Word) (apt : Bool)
    (t : BitVec 2) (i : BitVec 6) (view : ShadowView) : s.translate kind addr apt ≠ .shadow t i view := by
  unfold State.translate
  dsimp only
  split_ifs <;> nofun

/-- A write by `locate` stores to the bytes of the word it reaches. -/
theorem State.writeAt_stores (s : State) (datum : Datum) (addr : Word) (apt : Bool) :
    (s.writeAt datum (s.locate .write addr apt)).Reaches
      (Stores ((s.locate .write addr apt).bytes datum) s) := by
  refine Access.Reaches.stores (s.writeAt_sameBytes datum _) (fun hidden => ?_)
    ((s.writeAt_post datum _).mono (fun _ _ h => h.toFault) fun _ h => h.toWrite)
  rw [State.locate_translated hidden.1 (.inr hidden.2)]
  exact s.writeAt_marked datum _ (s.translate_ne_shadow _ _ _)

theorem State.bytesAt_eq (s : State) (addr : Word) (apt : Bool) (v : Word) :
    s.bytesAt addr apt = (s.locate .write addr apt).bytes (.word v) := by
  unfold State.bytesAt
  cases s.locate .write addr apt <;> rfl

theorem State.memWrite_stores (s : State) (addr : Word) (apt : Bool) (v : Word) :
    (s.memWrite addr apt v).Reaches (Stores (s.bytesAt addr apt) s) := by
  rw [s.bytesAt_eq addr apt v]
  exact s.writeAt_stores (.word v) addr apt

theorem State.effectiveAddress_stores (s : State) (mode : Mode) (disp : BitVec 8) :
    (s.effectiveAddress mode disp).Reaches (Stores [] s) := by
  cases mode <;> simp only [State.effectiveAddress]
  case pRel | bRel | xIdx | bxIdx => exact Stores.of_banks s s.banks
  all_goals exact Access.post_bind (s.memRead_stores _ _) (fun _ _ h => h) fun _ h => h

/-! ### Several words written in order -/

theorem State.bytesOf_cons_ok {apt : Bool} {addr v : Word} (h : s.memWrite addr apt v = .ok () t)
    (rest : List (Word × Word)) :
    s.bytesOf apt ((addr, v) :: rest) = s.bytesAt addr apt ++ t.bytesOf apt rest := by
  simp only [State.bytesOf, h]

theorem State.bytesAt_subset_bytesOf (s : State) (apt : Bool) (addr v : Word)
    (rest : List (Word × Word)) : s.bytesAt addr apt ⊆ s.bytesOf apt ((addr, v) :: rest) :=
  List.subset_append_left _ _

/-- A meaning after words written in order: after the first, and then the others. -/
theorem State.memWriteList_cons_andThen (s : State) (apt : Bool) (addr v : Word)
    (rest : List (Word × Word)) (k : Unit → State → Result) :
    (s.memWriteList apt ((addr, v) :: rest)).andThen k =
      (s.memWrite addr apt v).andThen fun _ t => (t.memWriteList apt rest).andThen k := by
  rw [State.memWriteList]
  cases s.memWrite addr apt v <;> rfl

theorem State.memWriteList_stores (apt : Bool) (writes : List (Word × Word)) (s : State) :
    (s.memWriteList apt writes).Reaches (Stores (s.bytesOf apt writes) s) := by
  induction writes generalizing s with
  | nil => exact Stores.of_banks s s.banks
  | cons w rest ih =>
    obtain ⟨addr, v⟩ := w
    have first := s.memWrite_stores addr apt v
    have within := s.bytesAt_subset_bytesOf apt addr v rest
    rw [State.memWriteList]
    cases written : s.memWrite addr apt v with
    | ok _ t =>
      rw [written] at first
      have others : t.bytesOf apt rest ⊆ s.bytesOf apt ((addr, v) :: rest) := by
        rw [State.bytesOf_cons_ok written]
        exact List.subset_append_right _ _
      exact (ih t).mono (fun _ _ h => (Stores.mono first within).trans (h.mono others))
        fun _ h => (Stores.mono first within).trans (h.mono others)
    | abandoned t =>
      rw [written] at first
      exact Stores.mono first within
    | refused r => trivial

/-! ### Register writes do not change where an access goes -/

theorem State.locate_setCur (s : State) (r : Reg) (v : Word) (kind : AccessKind) (addr : Word)
    (apt : Bool) : (s.setCur r v).locate kind addr apt = s.locate kind addr apt := by
  have window : (s.setCur r v).isShadow addr = s.isShadow addr := rfl
  have place : (s.setCur r v).shadowLocation addr = s.shadowLocation addr := rfl
  have paged : (s.setCur r v).translate kind addr apt = s.translate kind addr apt :=
    State.translate_congr kind addr apt rfl rfl rfl rfl (by simp)
  unfold State.locate
  rw [window, place, paged]
  rfl

theorem State.bytesAt_setCur (s : State) (r : Reg) (v addr : Word) (apt : Bool) :
    (s.setCur r v).bytesAt addr apt = s.bytesAt addr apt := by
  unfold State.bytesAt
  rw [State.locate_setCur]

end Sys2Proof.Machine
end

section
/-! The bytes each storing instruction stores to (`storedBytes`), and the marker bits the others set. -/

namespace Sys2Proof.Machine

variable (s : State)

/-! ### Stores by translated addresses -/

/-- Accesses that go on alike are one meaning. -/
theorem Access.andThen_congr {α : Type} {x : Access α} {k k' : α → State → Result}
    (h : ∀ v t, x = .ok v t → k v t = k' v t) : x.andThen k = x.andThen k' := by
  cases x with
  | ok v t => exact h v t rfl
  | abandoned t => rfl
  | refused r => rfl

/-- Words stored in order from the effective address on. -/
def storeWords (mode : Mode) (disp : BitVec 8) (words : Word → List (Word × Word)) (s : State) : Result :=
  (s.effectiveAddress mode disp).andThen fun ea t =>
    (t.memWriteList ea.2 (words ea.1)).andThen fun _ u => .next u.next

theorem storeOperand_eq_storeWords (mode : Mode) (disp : BitVec 8) (v : Word) :
    storeOperand mode disp v s = storeWords mode disp (fun ea => [(ea, v)]) s := by
  unfold storeOperand storeWords State.writeOperand
  cases s.effectiveAddress mode disp with
  | ok ea t =>
    symm
    exact t.memWriteList_cons_andThen ea.2 ea.1 v [] _
  | abandoned t => rfl
  | refused r => rfl

theorem execStd_eq_storeWords (mode : Mode) (disp : BitVec 8) :
    execStd mode disp s =
      storeWords mode disp (fun ea => [(ea, s.cur .a), (ea + 1, s.cur .d)]) s := by
  refine Access.andThen_congr fun ea t found => ?_
  have registers := (State.effectiveAddress_ok found).cur
  simp only [State.memWriteList_cons_andThen, registers]
  refine Access.andThen_congr fun _ u written => ?_
  rw [(State.memWrite_ok written).cur, registers]
  rfl

theorem execStf_eq_storeWords (mode : Mode) (disp : BitVec 8) :
    execStf mode disp s =
      storeWords mode disp (fun ea => [(ea, s.cur .t), (ea + 1, s.cur .a), (ea + 2, s.cur .d)]) s := by
  refine Access.andThen_congr fun ea t found => ?_
  have registers := (State.effectiveAddress_ok found).cur
  simp only [State.memWriteList_cons_andThen, registers]
  refine Access.andThen_congr fun _ u written => ?_
  have afterFirst := (State.memWrite_ok written).cur
  rw [afterFirst, registers]
  refine Access.andThen_congr fun _ w written => ?_
  rw [(State.memWrite_ok written).cur, afterFirst, registers]
  rfl

theorem storeWords_stores (mode : Mode) (disp : BitVec 8) (words : Word → List (Word × Word)) :
    Ends (storeWords mode disp words s) (Stores (s.bytesAtOperand mode disp words) s) := by
  refine Stores.andThen (s.effectiveAddress_stores mode disp) (List.nil_subset _) fun ea t found => ?_
  have bytes : s.bytesAtOperand mode disp words = t.bytesOf ea.2 (words ea.1) := by
    simp only [State.bytesAtOperand, found]
  rw [bytes]
  exact Stores.andThen (State.memWriteList_stores _ _ t) (List.Subset.refl _)
    fun _ u _ => Stores.of_banks u _

theorem storeOperand_stores (mode : Mode) (disp : BitVec 8) (v : Word) :
    Ends (storeOperand mode disp v s) (Stores (s.bytesAtOperand mode disp fun ea => [(ea, v)]) s) := by
  rw [storeOperand_eq_storeWords]
  exact storeWords_stores s mode disp _

theorem execStd_stores (mode : Mode) (disp : BitVec 8) :
    Ends (execStd mode disp s) (Stores (storedBytes s (.std mode disp)) s) := by
  rw [execStd_eq_storeWords]
  exact storeWords_stores s mode disp _

theorem execStf_stores (mode : Mode) (disp : BitVec 8) :
    Ends (execStf mode disp s) (Stores (storedBytes s (.stf mode disp)) s) := by
  rw [execStf_eq_storeWords]
  exact storeWords_stores s mode disp _

/-- MIN writes back to the word it read (R115). -/
theorem execMin_stores (mode : Mode) (disp : BitVec 8) :
    Ends (execMin mode disp s) (Stores (storedBytes s (.min mode disp)) s) := by
  refine Stores.andThen (s.effectiveAddress_stores mode disp) (List.nil_subset _) fun ea t found => ?_
  refine Stores.andThen (t.memRead_stores _ _) (List.nil_subset _) fun v u read => ?_
  have bytes : storedBytes s (.min mode disp) = u.bytesOf ea.2 [(ea.1, v + 1)] := by
    delta storedBytes
    simp only [found, read]
  rw [bytes]
  refine Stores.andThen (u.memWrite_stores _ _ _) (u.bytesAt_subset_bytesOf _ _ _ []) fun _ w _ => ?_
  cases v + 1 == 0
  · exact Stores.of_banks w _
  · exact Stores.of_banks w _

/-- TSET writes to the word it read, after T is loaded (44_muldiv_byte.md R210). -/
theorem execTset_stores : Ends (execTset s) (Stores (storedBytes s .tset) s) := by
  refine Stores.andThen (s.memRead_stores _ _) (List.nil_subset _) fun v t read => ?_
  have bytes : storedBytes s .tset = t.bytesOf true [(s.cur .x, 0o177777)] := by
    delta storedBytes
    simp only [read]
  rw [bytes]
  have within : (t.setCur .t v).bytesAt (t.cur .x) true ⊆ t.bytesOf true [(s.cur .x, 0o177777)] := by
    rw [State.bytesAt_setCur, (State.memRead_ok read).cur]
    exact t.bytesAt_subset_bytesOf true _ _ []
  exact Stores.ends_after (Stores.of_banks t _) <|
    Stores.andThen ((t.setCur .t v).memWrite_stores _ _ _) within fun _ u _ => Stores.of_banks u _

/-- SBYT stores one byte (44_muldiv_byte.md R208). -/
theorem execSbyt_stores : Ends (execSbyt s) (Stores (storedBytes s .sbyt) s) := by
  have bytes : storedBytes s .sbyt = (s.locate .write s.byteStringAddress true).bytes
      (.byte ((s.cur .x).getLsbD 0) ((s.cur .a).extractLsb' 0 8)) := by
    delta storedBytes
    cases s.locate .write s.byteStringAddress true <;> rfl
  rw [bytes]
  exact Stores.andThen (s.writeAt_stores _ _ _) (List.Subset.refl _) fun _ u _ => Stores.of_banks u _

theorem trap_stores (B : List Nat) (c : Cause) : Stores B s (s.raiseCause c) := by
  unfold State.raiseCause
  rw [State.raiseInt_eq]
  exact ⟨.of_mem rfl, fun _ => .of_pt rfl, id⟩

/-- SRB stores its block word by word (46_system.md R274). -/
theorem execSrb_stores (level : Level) :
    Ends (execSrb level s) (Stores (storedBytes s (.srb level)) s) :=
  ends_privileged (fun _ => Stores.andThen (State.memWriteList_stores _ _ s) (List.Subset.refl _)
    fun _ u _ => Stores.of_banks u _) (trap_stores s _ _)

/-! ### Stores by physical addresses (46_system.md R278, R282 to R284) -/

theorem trap_sameBytes (B : List Nat) (c : Cause) : SameBytes B s (s.raiseCause c) :=
  (trap_stores s B c).memory

theorem State.physWrite_sameBytes (pa : PhysAddr) (v : Word) :
    (s.physWrite pa v).Reaches (SameBytes (wordBytes pa) s) :=
  (s.physWrite_post pa v).mono (fun _ _ h => h ▸ s.setPhys_sameBytes pa v) fun _ h => h.elim

theorem physStore_sameBytes (pa : State → PhysAddr) (v : State → Word) :
    Ends (privileged s fun s => physStore (pa s) (v s) s) (SameBytes (wordBytes (pa s)) s) :=
  ends_privileged (fun _ => Access.ends_andThen (s.physWrite_sameBytes (pa s) (v s)) (fun _ _ h => h)
    fun _ h => h) (trap_sameBytes s _ _)

theorem execStdtx_sameBytes (delta : BitVec 3) :
    Ends (execStdtx delta s)
      (SameBytes (wordBytes (s.txAddress delta) ++ wordBytes (s.txAddress delta + 1)) s) := by
  refine ends_privileged (fun _ => ?_) (trap_sameBytes s _ _)
  refine Access.ends_andThen (s.physWrite_sameBytes _ _) (fun _ t first => ?_)
    fun _ h => h.mono (List.subset_append_left _ _)
  have both {u : State} (second : SameBytes (wordBytes (s.txAddress delta + 1)) t u) :=
    (first.mono (List.subset_append_left _ _)).trans (second.mono (List.subset_append_right _ _))
  exact Access.ends_andThen (t.physWrite_sameBytes _ _) (fun _ _ h => both h) fun _ h => both h

/-! ### Reads set marker bits only -/

namespace Marked

variable {s t : State} {α β : Type}

theorem andThen {x : Access α} {k : α → State → Result} (access : x.Reaches (Marked s))
    (rest : ∀ v t, Ends (k v t) (Marked t)) : Ends (x.andThen k) (Marked s) :=
  Access.ends_andThen access (fun v t h => (rest v t).mono fun _ r => h.trans r) fun _ h => h

theorem bind {x : Access α} {k : α → State → Access β} (access : x.Reaches (Marked s))
    (rest : ∀ v t, (k v t).Reaches (Marked t)) : (x.bind k).Reaches (Marked s) :=
  Access.post_bind access
    (fun v t h => (rest v t).mono (fun _ _ r => h.trans r) fun _ r => h.trans r) fun _ h => h

theorem refl (s : State) : Marked s s := .of_pt rfl

/-- The rest of a meaning after a change of the register file. -/
theorem ends_after {r : Result} (h : t.pt = s.pt) (rest : Ends r (Marked t)) : Ends r (Marked s) :=
  rest.mono fun _ k => (of_pt h).trans k

end Marked

theorem State.effectiveAddress_marked (mode : Mode) (disp : BitVec 8) :
    (s.effectiveAddress mode disp).Reaches (Marked s) := by
  cases mode <;> simp only [State.effectiveAddress]
  case pRel | bRel | xIdx | bxIdx => exact Marked.refl s
  all_goals exact Marked.bind (s.memRead_marked _ _) fun _ t => Marked.refl t

theorem State.readOperand_marked (mode : Mode) (disp : BitVec 8) :
    (s.readOperand mode disp).Reaches (Marked s) :=
  Marked.bind (s.effectiveAddress_marked mode disp) fun _ t => t.memRead_marked _ _

theorem State.readFloat_marked (mode : Mode) (disp : BitVec 8) :
    (s.readFloat mode disp).Reaches (Marked s) :=
  Marked.bind (s.effectiveAddress_marked mode disp) fun _ t =>
    Marked.bind (t.memRead_marked _ _) fun _ t =>
      Marked.bind (t.memRead_marked _ _) fun _ t =>
        Marked.bind (t.memRead_marked _ _) fun _ t => Marked.refl t

theorem State.memReadList_marked (apt : Bool) (addrs : List Word) :
    (s.memReadList apt addrs).Reaches (Marked s) := by
  induction addrs generalizing s with
  | nil => exact Marked.refl s
  | cons a rest ih =>
    exact Marked.bind (s.memRead_marked a apt) fun _ t => Marked.bind (ih t) fun _ u => Marked.refl u

theorem State.pt_reportZ (c : Bool) : (s.reportZ c).pt = s.pt := by cases c <;> rfl

theorem State.pt_loadBlock (level : Level) (vs : List Word) : (s.loadBlock level vs).pt = s.pt := by
  unfold State.loadBlock
  split
  · dsimp only
    split <;> rfl
  · rfl

theorem execLdd_marked (mode : Mode) (disp : BitVec 8) : Ends (execLdd mode disp s) (Marked s) :=
  Marked.andThen (s.effectiveAddress_marked mode disp) fun _ t =>
    Marked.andThen (t.memRead_marked _ _) fun v u =>
      Marked.ends_after (t := u.setCur .a v) rfl <|
        Marked.andThen (State.memRead_marked _ _ _) fun _ _ => Marked.of_pt rfl

theorem execLdf_marked (mode : Mode) (disp : BitVec 8) : Ends (execLdf mode disp s) (Marked s) :=
  Marked.andThen (s.effectiveAddress_marked mode disp) fun _ t =>
    Marked.andThen (t.memRead_marked _ _) fun x u =>
      Marked.ends_after (t := u.setCur .t x) rfl <|
        Marked.andThen (State.memRead_marked _ _ _) fun y w =>
          Marked.ends_after (t := w.setCur .a y) rfl <|
            Marked.andThen (State.memRead_marked _ _ _) fun _ _ => Marked.of_pt rfl

/-- FAD, FSB and FMU: a result made of the accumulator and the operand read. -/
theorem floatOperation_marked (f : Flt → State → Flt × FloatReport) (mode : Mode) (disp : BitVec 8) :
    Ends ((s.readFloat mode disp).andThen fun b t => .next (t.floatResult (f b t)).next) (Marked s) :=
  Marked.andThen (s.readFloat_marked mode disp) fun _ _ => Marked.of_pt (State.pt_reportZ _ _)

theorem execFdv_marked (mode : Mode) (disp : BitVec 8) : Ends (execFdv mode disp s) (Marked s) :=
  Marked.andThen (s.readFloat_marked mode disp) fun _ _ => by
    split
    · exact Marked.of_pt rfl
    · exact Marked.of_pt (State.pt_reportZ _ _)

theorem execLrb_marked (level : Level) : Ends (execLrb level s) (Marked s) :=
  ends_privileged (fun _ => Marked.andThen (s.memReadList_marked _ _)
    fun _ t => Marked.of_pt (State.pt_loadBlock t _ _))
    (Marked.of_pt (s.raiseInt_onlyParts 14 _ .pageTables (by decide)))

/-! ### The table -/

/-- The instructions that store by translated addresses. -/
def storesTranslated : Instr → Bool
  | .stz _ _ | .sta _ _ | .stt _ _ | .stx _ _ | .std _ _ | .stf _ _ | .min _ _ | .sbyt | .tset
  | .srb _ => true
  | _ => false

/-- The instructions that store by physical addresses. -/
def storesPhysical : Instr → Bool
  | .depo | .statx _ | .stztx _ | .stdtx _ => true
  | _ => false

/-- The instructions that read by translated addresses and store nothing. -/
def readsTranslated : Instr → Bool
  | .lda _ _ | .ldt _ _ | .ldx _ _ | .ldd _ _ | .ldf _ _ | .add _ _ | .sub _ _ | .and _ _ | .ora _ _
  | .fad _ _ | .fsb _ _ | .fmu _ _ | .fdv _ _ | .mpy _ _ | .jmp _ _ | .jpl _ _ | .lbyt | .rdus
  | .lrb _ => true
  | _ => false

/-- Memory is written by the two kinds of stores alone, the page tables by translated accesses alone. -/
theorem partsWritten_contains_memory_pageTables (j : Instr) :
    (partsWritten j).contains .memory = (storesTranslated j || storesPhysical j) ∧
    (partsWritten j).contains .pageTables = (storesTranslated j || readsTranslated j) := by
  cases j
  case trr n | mcl n | mst n =>
    delta partsWritten
    dsimp only
    split_ifs <;> exact ⟨rfl, rfl⟩
  all_goals exact ⟨rfl, rfl⟩

theorem exec_stores {j : Instr} (h : storesTranslated j = true) :
    Ends (exec j s) (Stores (storedBytes s j) s) := by
  cases j
  case stz mode disp => exact storeOperand_stores s mode disp 0
  case sta mode disp => exact storeOperand_stores s mode disp (s.cur .a)
  case stt mode disp => exact storeOperand_stores s mode disp (s.cur .t)
  case stx mode disp => exact storeOperand_stores s mode disp (s.cur .x)
  case std mode disp => exact execStd_stores s mode disp
  case stf mode disp => exact execStf_stores s mode disp
  case min mode disp => exact execMin_stores s mode disp
  case sbyt => exact execSbyt_stores s
  case tset => exact execTset_stores s
  case srb level => exact execSrb_stores s level
  all_goals exact absurd h Bool.false_ne_true

theorem exec_sameBytes_of_storesPhysical {j : Instr} (h : storesPhysical j = true) :
    Ends (exec j s) (SameBytes (storedBytes s j) s) := by
  cases j
  case depo => exact physStore_sameBytes s State.panelAddress (·.cur .t)
  case statx delta => exact physStore_sameBytes s (·.txAddress delta) (·.cur .a)
  case stztx delta => exact physStore_sameBytes s (·.txAddress delta) fun _ => 0
  case stdtx delta => exact execStdtx_sameBytes s delta
  all_goals exact absurd h Bool.false_ne_true

theorem exec_marked_of_readsTranslated {j : Instr} (h : readsTranslated j = true) :
    Ends (exec j s) (Marked s) := by
  have operand {k : Word → State → State} (mode : Mode) (disp : BitVec 8)
      (same : ∀ m t, (k m t).pt = t.pt) :
      Ends ((s.readOperand mode disp).andThen fun m t => .next (k m t)) (Marked s) :=
    Marked.andThen (s.readOperand_marked mode disp) fun m t => Marked.of_pt (same m t)
  cases j
  case lda mode disp | ldt mode disp | ldx mode disp | add mode disp | sub mode disp | and mode disp
    | ora mode disp | mpy mode disp => exact operand mode disp fun _ _ => rfl
  case ldd mode disp => exact execLdd_marked s mode disp
  case ldf mode disp => exact execLdf_marked s mode disp
  case fad mode disp => exact floatOperation_marked s (fun b t => fadd t.floatAccumulator b) mode disp
  case fsb mode disp =>
    exact floatOperation_marked s (fun b t => fadd t.floatAccumulator b.negate) mode disp
  case fmu mode disp => exact floatOperation_marked s (fun b t => fmul t.floatAccumulator b) mode disp
  case fdv mode disp => exact execFdv_marked s mode disp
  case jmp mode disp | jpl mode disp =>
    exact Marked.andThen (s.effectiveAddress_marked mode disp) fun _ _ => Marked.of_pt rfl
  case lbyt | rdus => exact Marked.andThen (s.memRead_marked _ _) fun _ _ => Marked.of_pt rfl
  case lrb level => exact execLrb_marked s level
  all_goals exact absurd h Bool.false_ne_true

variable {s}

theorem exec_sameBytes {j : Instr} (notExr : ∀ sr, j ≠ .exr sr) :
    Ends (exec j s) (SameBytes (storedBytes s j) s) := by
  cases translated : storesTranslated j
  · cases physical : storesPhysical j
    · refine (exec_conforms s j notExr).mono fun t k => .of_mem (k.framed.onlyParts .memory fun m => ?_)
      have written := (partsWritten_contains_memory_pageTables j).1
      rw [translated, physical, List.contains_iff_mem.mpr m] at written
      exact absurd written (by decide)
    · exact exec_sameBytes_of_storesPhysical s physical
  · exact (exec_stores s translated).mono fun _ k => k.memory

/-- The page tables change by marker bits only where nothing is stored, and where the window is hidden
(20_memory.md R55, R60). -/
theorem exec_marked {j : Instr} (notExr : ∀ sr, j ≠ .exr sr)
    (h : Part.memory ∉ partsWritten j ∨ s.windowHidden) : Ends (exec j s) (Marked s) := by
  obtain ⟨memory, pageTables⟩ := partsWritten_contains_memory_pageTables j
  cases translated : storesTranslated j
  · cases reads : readsTranslated j
    · refine (exec_conforms s j notExr).mono fun t k =>
        .of_pt (k.framed.onlyParts .pageTables fun m => ?_)
      rw [translated, reads, List.contains_iff_mem.mpr m] at pageTables
      exact absurd pageTables (by decide)
    · exact exec_marked_of_readsTranslated s reads
  · rw [translated, Bool.true_or] at memory
    have hidden : s.windowHidden := h.resolve_left (not_not_intro (List.contains_iff_mem.mp memory))
    exact (exec_stores s translated).mono fun _ k => k.tables hidden

end Sys2Proof.Machine

namespace Sys2Proof.Proofs

open Sys2Proof.Machine

/-- Settles O56: the frames of memory and of the page tables hold for the instruction executed. -/
theorem memoryAndTableFrame : Obligations.MemoryAndTableFrame := by
  intro i j s t executed h
  obtain ⟨same, notExr⟩ := exec_of_executed executed
  rw [same] at h
  exact ⟨(exec_sameBytes notExr).of_next h, fun frame => (exec_marked notExr frame).of_next h⟩

end Sys2Proof.Proofs
end

section
/-! The words of format MR (30_encoding.md R83, R86). -/

namespace Sys2Proof

open Sys2Proof.Claims

/-- A row of format MR is found by its opcode alone: no other group of R86 has it. -/
theorem decode_of_decodeMemory {w : Word} {i : Instr} (row : decodeMemory w (field w 11 5) = some i) :
    decode w = .ok i := by
  unfold decode
  generalize field w 11 5 = op at row ⊢
  have noOtherGroup : op ∉ [0b10110#5, 0b11000#5, 0b11001#5, 0b11010#5, 0b11011#5, 0b11101#5,
      0b11110#5, 0b11111#5] := by
    intro other
    fin_cases other <;> cases row
  simp only [List.mem_cons, List.not_mem_nil, or_false, not_or] at noOtherGroup
  obtain ⟨conditionalJump, extended, registerOp, system, shift, iox, argument, bit⟩ := noOtherGroup
  simp only [if_neg conditionalJump, if_neg extended, if_neg registerOp, if_neg system, if_neg shift,
    if_neg iox, if_neg argument, if_neg bit, row]

theorem modeOfBits_bitsOfMode (m : Mode) : modeOfBits (bitsOfMode m) = m := by cases m <;> rfl

/-- The word of an instruction of format MR is its three fields joined. -/
theorem mrWord_eq_append (op : BitVec 5) (mode : Mode) (disp : BitVec 8) :
    mrWord (op ++ 0#11) mode disp = op ++ (bitsOfMode mode ++ disp) := by
  have wide : (bitsOfMode mode ++ disp).zeroExtend 16 = 0#5 ++ (bitsOfMode mode ++ disp) :=
    BitVec.setWidth_eq_append (by decide)
  rw [mrWord, wide, BitVec.or_append, BitVec.or_zero, BitVec.zero_or]

/-- The decoder gives back the operands of a word of format MR. -/
theorem decode_mrWord {op : BitVec 5} {i : Mode → BitVec 8 → Instr}
    (row : ∀ w, decodeMemory w op = some (i (modeField w) (lowByte w))) (mode : Mode) (disp : BitVec 8) :
    decode (mrWord (op ++ 0#11) mode disp) = .ok (i mode disp) := by
  rw [mrWord_eq_append]
  refine decode_of_decodeMemory ?_
  have opcode : field (op ++ (bitsOfMode mode ++ disp)) 11 5 = op := BitVec.extractLsb'_append_eq_left
  have modeBits : modeField (op ++ (bitsOfMode mode ++ disp)) = mode := by
    rw [modeField, field, BitVec.extractLsb'_append_eq_of_add_le (by decide),
      BitVec.extractLsb'_append_eq_left, modeOfBits_bitsOfMode]
  have displacement : lowByte (op ++ (bitsOfMode mode ++ disp)) = disp := by
    rw [lowByte, field, BitVec.extractLsb'_append_eq_of_add_le (by decide),
      BitVec.extractLsb'_append_eq_right]
  rw [opcode, row, modeBits, displacement]

end Sys2Proof
end

section
/-! Meanings run access by access: what an instruction of format MR does after its effective address, its
operand and its stores are known (40_memory_reference.md R100 to R103). -/

namespace Sys2Proof.Machine

variable {s s₁ t u : State} {mode : Mode} {disp : BitVec 8} {ea v : Word} {apt : Bool} {α β : Type}

/-! ### One access after another -/

theorem Access.andThen_of_ok {x : Access α} {v : α} (h : x = .ok v t) (k : α → State → Result) :
    x.andThen k = k v t := by rw [h]; rfl

theorem Access.andThen_of_abandoned {x : Access α} (h : x = .abandoned t) (k : α → State → Result) :
    x.andThen k = .next t := by rw [h]; rfl

theorem Access.bind_of_ok {x : Access α} {v : α} (h : x = .ok v t) (k : α → State → Access β) :
    x.bind k = k v t := by rw [h]; rfl

theorem Access.bind_of_abandoned {x : Access α} (h : x = .abandoned t) (k : α → State → Access β) :
    x.bind k = .abandoned t := by rw [h]; rfl

theorem Access.bind_andThen (x : Access α) (f : α → State → Access β) (k : β → State → Result) :
    (x.bind f).andThen k = x.andThen fun v s => (f v s).andThen k := by cases x <;> rfl

/-- Two accesses in order are abandoned in the first or in the second. -/
theorem Access.bind_eq_abandoned {x : Access α} {f : α → State → Access β} :
    x.bind f = .abandoned t ↔ x = .abandoned t ∨ ∃ v u, x = .ok v u ∧ f v u = .abandoned t := by
  cases x <;> simp [Access.bind]

/-! ### The operand -/

theorem State.readOperand_of_found (found : s.effectiveAddress mode disp = .ok (ea, apt) s₁) :
    s.readOperand mode disp = s₁.memRead ea apt := Access.bind_of_ok found _

/-- The registers an instruction sees after its operand is read are those it began with. -/
theorem State.cur_of_read (found : s.effectiveAddress mode disp = .ok (ea, apt) s₁)
    (read : s₁.memRead ea apt = .ok v t) (r : Reg) : t.cur r = s.cur r :=
  ((State.memRead_ok read).cur r).trans ((State.effectiveAddress_ok found).cur r)

/-- An instruction that goes on from its operand. -/
theorem State.readOperand_andThen (found : s.effectiveAddress mode disp = .ok (ea, apt) s₁)
    (read : s₁.memRead ea apt = .ok v t) (k : Word → State → Result) :
    (s.readOperand mode disp).andThen k = k v t :=
  Access.andThen_of_ok ((State.readOperand_of_found found).trans read) k

/-- A register write before a read that completes. -/
theorem State.memRead_setCur_ok {a : Word} (h : s.memRead a apt = .ok v t) (r : Reg) (w : Word) :
    (s.setCur r w).memRead a apt = .ok v (t.setCur r w) := by rw [State.memRead_setCur, h]

/-- A register write before a read that faults. -/
theorem State.memRead_setCur_abandoned {a : Word} (h : s.memRead a apt = .abandoned t) (r : Reg)
    (w : Word) : (s.setCur r w).memRead a apt = .abandoned (t.setCur r w) := by
  rw [State.memRead_setCur, h]

/-- `next` after a register other than P was loaded. -/
theorem State.next_setCur (h : t.cur .p = s.cur .p) {r : Reg} (notP : r ≠ .p) (v : Word) :
    (t.setCur r v).next = (t.setCur r v).jump (s.cur .p + 1) :=
  State.next_eq_jump (by rw [State.cur_setCur, if_neg notP.symm, h])

/-! ### Stores -/

/-- One word written in order is the word written. -/
theorem State.memWriteList_singleton (s : State) (apt : Bool) (a v : Word) :
    s.memWriteList apt [(a, v)] = s.memWrite a apt v := by
  unfold State.memWriteList
  cases s.memWrite a apt v <;> rfl

/-- Words written in order, once the first is. -/
theorem State.memWriteList_cons_of_ok {a : Word} (h : s.memWrite a apt v = .ok () t)
    (rest : List (Word × Word)) : s.memWriteList apt ((a, v) :: rest) = t.memWriteList apt rest :=
  Access.bind_of_ok h _

/-- Words stored from an effective address that is known. -/
theorem storeWords_of_found (found : s.effectiveAddress mode disp = .ok (ea, apt) s₁)
    (words : Word → List (Word × Word)) :
    storeWords mode disp words s = (s₁.memWriteList apt (words ea)).andThen fun _ u => .next u.next :=
  Access.andThen_of_ok found _

/-- All words stored: then `next`. -/
theorem storeWords_of_written {words : Word → List (Word × Word)}
    (found : s.effectiveAddress mode disp = .ok (ea, apt) s₁)
    (written : s₁.memWriteList apt (words ea) = .ok () t) :
    storeWords mode disp words s = .next (t.jump (s.cur .p + 1)) := by
  have step : WriteStep s₁ t := by
    have post := State.memWriteList_post apt (words ea) s₁
    rwa [written] at post
  have sameP : t.cur .p = s.cur .p := (step.cur .p).trans ((State.effectiveAddress_ok found).cur .p)
  rw [storeWords_of_found found, Access.andThen_of_ok written, State.next_eq_jump sameP]

/-- A word not stored: the words before it are, and P stays at the instruction. -/
theorem storeWords_of_abandoned {words : Word → List (Word × Word)}
    (found : s.effectiveAddress mode disp = .ok (ea, apt) s₁)
    (fault : s₁.memWriteList apt (words ea) = .abandoned t) : storeWords mode disp words s = .next t :=
  (storeWords_of_found found words).trans (Access.andThen_of_abandoned fault _)

/-- What a faulted write leaves (20_memory.md R56). -/
theorem State.memWrite_abandoned_keeps {a : Word} (fault : u.memWrite a apt v = .abandoned t)
    (same : ∀ r, u.cur r = s.cur r) : t.mem = u.mem ∧ t.cur .p = s.cur .p :=
  ⟨(State.memWrite_abandoned fault).mem, ((State.memWrite_abandoned fault).cur .p).trans (same .p)⟩

/-- The meanings of the six stores as words stored in order (R104 to R107, R116, R118). -/
theorem exec_stz (mode : Mode) (disp : BitVec 8) (s : State) :
    exec (.stz mode disp) s = storeWords mode disp (fun ea => [(ea, 0)]) s :=
  storeOperand_eq_storeWords s mode disp _

theorem exec_sta (mode : Mode) (disp : BitVec 8) (s : State) :
    exec (.sta mode disp) s = storeWords mode disp (fun ea => [(ea, s.cur .a)]) s :=
  storeOperand_eq_storeWords s mode disp _

theorem exec_stt (mode : Mode) (disp : BitVec 8) (s : State) :
    exec (.stt mode disp) s = storeWords mode disp (fun ea => [(ea, s.cur .t)]) s :=
  storeOperand_eq_storeWords s mode disp _

theorem exec_stx (mode : Mode) (disp : BitVec 8) (s : State) :
    exec (.stx mode disp) s = storeWords mode disp (fun ea => [(ea, s.cur .x)]) s :=
  storeOperand_eq_storeWords s mode disp _

theorem exec_std (mode : Mode) (disp : BitVec 8) (s : State) :
    exec (.std mode disp) s =
      storeWords mode disp (fun ea => [(ea, s.cur .a), (ea + 1, s.cur .d)]) s :=
  execStd_eq_storeWords s mode disp

theorem exec_stf (mode : Mode) (disp : BitVec 8) (s : State) :
    exec (.stf mode disp) s =
      storeWords mode disp (fun ea => [(ea, s.cur .t), (ea + 1, s.cur .a), (ea + 2, s.cur .d)]) s :=
  execStf_eq_storeWords s mode disp

/-! ### Loads -/

/-- A register loaded, and `next`. -/
theorem loadOperand_of_read (found : s.effectiveAddress mode disp = .ok (ea, apt) s₁)
    (read : s₁.memRead ea apt = .ok v t) {r : Reg} (notP : r ≠ .p) :
    loadOperand r mode disp s = .next ((t.setCur r v).jump (s.cur .p + 1)) := by
  rw [loadOperand, State.readOperand_andThen found read,
    State.next_setCur (State.cur_of_read found read .p) notP]

/-- LDD after A is loaded (R117). -/
theorem exec_ldd_of_read (found : s.effectiveAddress mode disp = .ok (ea, apt) s₁)
    (read : s₁.memRead ea apt = .ok v t) :
    exec (.ldd mode disp) s =
      ((t.setCur .a v).memRead (ea + 1) apt).andThen fun w u => .next (u.setCur .d w).next :=
  (Access.andThen_of_ok found _).trans (Access.andThen_of_ok read _)

/-- LDF after T is loaded (R119). -/
theorem exec_ldf_of_read (found : s.effectiveAddress mode disp = .ok (ea, apt) s₁)
    (read : s₁.memRead ea apt = .ok v t) :
    exec (.ldf mode disp) s =
      ((t.setCur .t v).memRead (ea + 1) apt).andThen fun w u =>
        ((u.setCur .a w).memRead (ea + 2) apt).andThen fun x u => .next (u.setCur .d x).next :=
  (Access.andThen_of_ok found _).trans (Access.andThen_of_ok read _)

end Sys2Proof.Machine
end

section
/-! The statements of 40_memory_reference.md on addresses, stores and loads. -/

namespace Sys2Proof.Proofs

open Sys2Proof.Machine

/-- Settles O13: an indirect mode is its one read, after which X is still that of the instruction. -/
theorem effectiveAddressModes : Obligations.EffectiveAddressModes := by
  intro s t disp ptr d
  have indexed {base : Word} {apt : Bool} (read : s.memRead base apt = .ok ptr t) :
      ((s.memRead base apt).bind fun ptr u => .ok (ptr + u.cur .x, true) u) =
        .ok (ptr + s.cur .x, true) t := by
    rw [Access.bind_of_ok read, (State.memRead_ok read).cur]
  exact ⟨rfl, rfl, rfl, rfl,
    fun read => ⟨Access.bind_of_ok read _, indexed read⟩,
    fun read => ⟨Access.bind_of_ok read _, indexed read⟩,
    fun fault => ⟨Access.bind_of_abandoned fault _, Access.bind_of_abandoned fault _⟩,
    fun fault => ⟨Access.bind_of_abandoned fault _, Access.bind_of_abandoned fault _⟩⟩

/-- Settles O25: each store is a list of words written in order, of which a fault keeps the first ones. -/
theorem storesWriteTheirRegisters : Obligations.StoresWriteTheirRegisters := by
  intro s s₁ t mode disp ea apt
  refine ⟨decode_mrWord (op := 0b00000) (fun _ => rfl) mode disp,
    decode_mrWord (op := 0b00001) (fun _ => rfl) mode disp,
    decode_mrWord (op := 0b00010) (fun _ => rfl) mode disp,
    decode_mrWord (op := 0b00011) (fun _ => rfl) mode disp,
    decode_mrWord (op := 0b00100) (fun _ => rfl) mode disp,
    decode_mrWord (op := 0b00110) (fun _ => rfl) mode disp, fun found => ?_⟩
  have one {v : Word} (written : s₁.memWrite ea apt v = .ok () t) :
      storeWords mode disp (fun ea => [(ea, v)]) s = .next (t.jump (s.cur .p + 1)) :=
    storeWords_of_written found ((s₁.memWriteList_singleton apt ea v).trans written)
  have unchanged {u : State} {a v : Word} {w : State} (same : ∀ r, w.cur r = s.cur r)
      (written : w.memWrite a apt v = .ok () u) (r : Reg) : u.cur r = s.cur r :=
    ((State.memWrite_ok written).cur r).trans (same r)
  have addressed := (State.effectiveAddress_ok found).cur
  rw [exec_stz, exec_sta, exec_stt, exec_stx, exec_std, exec_stf]
  refine ⟨one, one, one, one, fun u first => ?std, fun u first => ?stf⟩
  case std =>
    have list : s₁.memWriteList apt [(ea, s.cur .a), (ea + 1, s.cur .d)] =
        u.memWrite (ea + 1) apt (s.cur .d) := by
      rw [State.memWriteList_cons_of_ok first, State.memWriteList_singleton]
    exact ⟨fun second => storeWords_of_written found (list.trans second),
      fun fault => ⟨storeWords_of_abandoned found (list.trans fault),
        State.memWrite_abandoned_keeps fault (unchanged addressed first)⟩⟩
  case stf =>
    have afterFirst := State.memWriteList_cons_of_ok first [(ea + 1, s.cur .a), (ea + 2, s.cur .d)]
    refine ⟨fun fault => ⟨storeWords_of_abandoned found
        (afterFirst.trans (Access.bind_of_abandoned fault _)),
        State.memWrite_abandoned_keeps fault (unchanged addressed first)⟩, fun v second => ?_⟩
    have list : s₁.memWriteList apt [(ea, s.cur .t), (ea + 1, s.cur .a), (ea + 2, s.cur .d)] =
        v.memWrite (ea + 2) apt (s.cur .d) := by
      rw [afterFirst, State.memWriteList_cons_of_ok second, State.memWriteList_singleton]
    exact ⟨fun third => storeWords_of_written found (list.trans third),
      fun fault => ⟨storeWords_of_abandoned found (list.trans fault),
        State.memWrite_abandoned_keeps fault (unchanged (unchanged addressed first) second)⟩⟩

/-- Settles O26: a register loaded before a later read does not change where that read goes. -/
theorem loadsFillTheirRegisters : Obligations.LoadsFillTheirRegisters := by
  intro s s₁ s₂ s₃ t mode disp ea v₀ v₁ v₂ apt
  refine ⟨decode_mrWord (op := 0b01001) (fun _ => rfl) mode disp,
    decode_mrWord (op := 0b01010) (fun _ => rfl) mode disp,
    decode_mrWord (op := 0b01011) (fun _ => rfl) mode disp,
    decode_mrWord (op := 0b00101) (fun _ => rfl) mode disp,
    decode_mrWord (op := 0b00111) (fun _ => rfl) mode disp, fun found first => ?_⟩
  have sameP : s₂.cur .p = s.cur .p := State.cur_of_read found first .p
  rw [exec_ldd_of_read found first, exec_ldf_of_read found first]
  refine ⟨loadOperand_of_read found first (by decide), loadOperand_of_read found first (by decide),
    loadOperand_of_read found first (by decide), fun second => ⟨?ldd, fun third => ?ldf,
      fun fault => ?ldfThirdFault⟩, fun fault => ⟨?lddFault, ?ldfSecondFault⟩⟩
  case ldd =>
    rw [Access.andThen_of_ok (State.memRead_setCur_ok second .a v₀), State.next_setCur ?_ (by decide)]
    rw [State.cur_setCur, if_neg (by decide), (State.memRead_ok second).cur, sameP]
  case ldf =>
    rw [Access.andThen_of_ok (State.memRead_setCur_ok second .t v₀),
      Access.andThen_of_ok (State.memRead_setCur_ok (State.memRead_setCur_ok third .t v₀) .a v₁),
      State.next_setCur ?_ (by decide)]
    rw [State.cur_setCur, if_neg (by decide), State.cur_setCur, if_neg (by decide),
      (State.memRead_ok third).cur, (State.memRead_ok second).cur, sameP]
  case ldfThirdFault =>
    rw [Access.andThen_of_ok (State.memRead_setCur_ok second .t v₀)]
    exact Access.andThen_of_abandoned
      (State.memRead_setCur_abandoned (State.memRead_setCur_abandoned fault .t v₀) .a v₁) _
  case lddFault => exact Access.andThen_of_abandoned (State.memRead_setCur_abandoned fault .a v₀) _
  case ldfSecondFault => exact Access.andThen_of_abandoned (State.memRead_setCur_abandoned fault .t v₀) _

end Sys2Proof.Proofs
end

section
/-! The adder in the words of 42_register_ops.md R150. -/

namespace Sys2Proof.Machine

open Sys2Proof.Claims

variable (s : State) (a b : Word) (cin : Bool)

/-- Two words and a carry fit in 17 bits. -/
theorem toNat_wideSum : (wideSum a b cin).toNat = sum17 a b cin := by
  have carry : ((BitVec.ofBool cin).zeroExtend 17).toNat = cin.toNat := by cases cin <;> rfl
  have ha := a.isLt
  have hb := b.isLt
  have hc := cin.toNat_le
  simp only [wideSum, sum17, BitVec.toNat_add, carry, BitVec.truncate_eq_setWidth, BitVec.toNat_setWidth]
  omega

theorem addSum_eq_sum16 : addSum a b cin = sum16 a b cin := by
  apply BitVec.eq_of_toNat_eq
  simp [addSum, sum16, toNat_wideSum]

theorem addCarry_eq : addCarry a b cin = decide (2 ^ 16 ≤ sum17 a b cin) := by
  rw [← toNat_wideSum]
  have top : addCarry a b cin = true ↔ 2 ^ 16 ≤ (wideSum a b cin).toNat := getLsbD_top _
  exact Bool.eq_iff_iff.mpr (top.trans decide_eq_true_iff.symm)

theorem addOverflow_eq_sumOverflows : addOverflow a b cin = sumOverflows a b cin := by
  rw [addOverflow, addSum_eq_sum16, sumOverflows]

theorem State.setBank_setBank (l : Level) (j k : Bank) : (s.setBank l j).setBank l k = s.setBank l k := by
  simp [State.setBank]

theorem State.setCurFlags_setCurFlags (f g : BitVec 8) :
    (s.setCurFlags f).setCurFlags g = s.setCurFlags g := by
  simp [State.setCurFlags, State.setFlags, State.setBank_setBank]

/-- The adder writes C and Q, and sets O where it overflows. -/
theorem State.addFlags_eq_setCQO :
    s.addFlags a b cin = setCQO s (decide (2 ^ 16 ≤ sum17 a b cin)) (sumOverflows a b cin) := by
  rw [← addCarry_eq, ← addOverflow_eq_sumOverflows]
  simp only [setCQO, State.setFlag, State.setCurFlags_setCurFlags, State.curFlags_setCurFlags,
    State.addFlags, Sys2Proof.Machine.addFlags, Sys2Proof.Machine.overflowFlags, State.flag,
    flagOf_withFlag, reduceCtorEq, if_false]

/-- An addition to a register other than P, and `next`. -/
theorem State.addTo_next_eq_afterAdd {r : Reg} (notP : r ≠ .p) :
    (s.addTo r b cin).next = afterAdd s r b cin := by
  rw [State.addTo, State.addFlags_eq_setCQO, addSum_eq_sum16, State.next_setCur ?_ notP, afterAdd]
  simp [setCQO]

theorem cur_afterAdd_same {r : Reg} (notP : r ≠ .p) :
    (afterAdd s r b cin).cur r = sum16 (s.cur r) b cin := by
  simp [afterAdd, notP]

theorem flag_c_afterAdd (r : Reg) :
    (afterAdd s r b cin).flag .c = decide (2 ^ 16 ≤ sum17 (s.cur r) b cin) := by
  simp [afterAdd, State.jump, setCQO]

/-- Adding the complement and 1 subtracts. -/
theorem sum16_not : sum16 a (~~~b) true = a - b := by
  have ha := a.isLt
  have hb := b.isLt
  apply BitVec.eq_of_toNat_eq
  simp only [sum16, sum17, BitVec.toNat_ofNat, BitVec.toNat_not, BitVec.toNat_sub, Bool.toNat_true]
  omega

/-- The carry of a subtraction says that nothing was borrowed (40_memory_reference.md R112). -/
theorem carry_sum17_not : 2 ^ 16 ≤ sum17 a (~~~b) true ↔ b ≤ a := by
  have hb := b.isLt
  simp only [sum17, BitVec.toNat_not, Bool.toNat_true, BitVec.le_def]
  omega

end Sys2Proof.Machine
end

section
/-! The statements of 40_memory_reference.md on arithmetic, MIN and faulted operands. -/

namespace Sys2Proof.Machine

variable {s s₁ t u : State} {mode : Mode} {disp : BitVec 8} {ea m v : Word} {apt : Bool} {α β γ : Type}

/-! ### MIN (R115) -/

/-- MIN after its operand is read. -/
theorem exec_min_of_read (found : s.effectiveAddress mode disp = .ok (ea, apt) s₁)
    (read : s₁.memRead ea apt = .ok m t) :
    exec (.min mode disp) s =
      (t.memWrite ea apt (m + 1)).andThen fun _ u => .next (u.skipIf (m + 1 == 0)) :=
  (Access.andThen_of_ok found _).trans (Access.andThen_of_ok read _)

/-- A skip is a jump by 1 or 2. -/
theorem State.skipIf_eq_jump (s : State) (c : Bool) :
    s.skipIf c = s.jump (s.cur .p + if c then 2 else 1) := by cases c <;> rfl

/-- Only the largest word becomes 0 when incremented. -/
theorem succ_beq_zero (m : Word) : (m + 1 == 0) = decide (m = 0o177777) := by
  rw [beq_eq_decide]
  exact decide_eq_decide.mpr ⟨fun h => by bv_omega, fun h => by rw [h]; rfl⟩

/-! ### A fault of the first access (R102, R103) -/

/-- The rest of a meaning is not reached where its first two accesses end in a fault. -/
theorem Access.andThen_of_bind_abandoned {x : Access α} {f : α → State → Access β}
    (fault : x.bind f = .abandoned t) (k : α → β → State → Result) :
    (x.andThen fun v u => (f v u).andThen (k v)) = .next t := by
  obtain first | ⟨v, u, done, second⟩ := Access.bind_eq_abandoned.mp fault
  · exact Access.andThen_of_abandoned first _
  · rw [Access.andThen_of_ok done, Access.andThen_of_abandoned second]

/-- The accesses after the first two are not reached where those end in a fault. -/
theorem Access.bind_of_bind_abandoned {x : Access α} {f : α → State → Access β}
    (fault : x.bind f = .abandoned t) (k : α → β → State → Access γ) :
    (x.bind fun v u => (f v u).bind (k v)) = .abandoned t := by
  obtain first | ⟨v, u, done, second⟩ := Access.bind_eq_abandoned.mp fault
  · exact Access.bind_of_abandoned first _
  · rw [Access.bind_of_ok done, Access.bind_of_abandoned second]

/-- The first of the three words of a float is an operand like any other (45_float.md section 3). -/
theorem State.readFloat_of_fault (fault : s.readOperand mode disp = .abandoned t) :
    s.readFloat mode disp = .abandoned t := Access.bind_of_bind_abandoned fault _

theorem storeWords_of_fault (fault : s.writeOperand mode disp v = .abandoned t)
    (rest : Word → List (Word × Word)) :
    storeWords mode disp (fun ea => (ea, v) :: rest ea) s = .next t := by
  unfold storeWords
  simp only [State.memWriteList_cons_andThen]
  exact Access.andThen_of_bind_abandoned fault _

/-- Every instruction of format MR goes on from its effective address: it reads or writes its operand by
one operation, or takes the address itself. -/
theorem exec_memoryReference (s : State) (mode : Mode) (disp : BitVec 8)
    {p : Word × (Mode → BitVec 8 → Instr)} (row : p ∈ Claims.memoryReference) :
    ∃ k, exec (p.2 mode disp) s = (s.effectiveAddress mode disp).andThen k := by
  fin_cases row
  any_goals exact ⟨_, Access.bind_andThen _ _ _⟩
  all_goals exact ⟨_, rfl⟩

end Sys2Proof.Machine

namespace Sys2Proof.Proofs

open Sys2Proof.Machine Sys2Proof.Claims

/-- Settles O27, from the adder and the operand read. -/
theorem arithmeticAndLogicOnA : Obligations.ArithmeticAndLogicOnA := by
  intro s s₁ t mode disp ea m apt
  refine ⟨decode_mrWord (op := 0b01100) (fun _ => rfl) mode disp,
    decode_mrWord (op := 0b01101) (fun _ => rfl) mode disp,
    decode_mrWord (op := 0b01110) (fun _ => rfl) mode disp,
    decode_mrWord (op := 0b01111) (fun _ => rfl) mode disp, fun found read => ?_⟩
  have operand := State.readOperand_andThen found read
  have registers := State.cur_of_read found read
  have logic (v : Word) : (t.setCur .a v).next = (t.setCur .a v).jump (s.cur .p + 1) :=
    State.next_setCur (registers .p) (by decide) v
  refine ⟨(operand _).trans ?add, (operand _).trans ?sub, (operand _).trans ?and, (operand _).trans ?ora,
    ?difference, ?noBorrow⟩
  case add => rw [State.addTo_next_eq_afterAdd _ _ _ (by decide)]
  case sub => rw [State.addTo_next_eq_afterAdd _ _ _ (by decide)]
  case and => rw [logic, registers]
  case ora => rw [logic, registers]
  case difference => rw [cur_afterAdd_same _ _ _ (by decide), registers, sum16_not]
  case noBorrow => rw [flag_c_afterAdd, registers, decide_eq_decide.mpr (carry_sum17_not _ _)]

/-- Settles O29: the read leaves memory, so a fault of either access does. -/
theorem minIncrementsAndSkips : Obligations.MinIncrementsAndSkips := by
  intro s s₁ s₂ t mode disp ea m apt
  refine ⟨decode_mrWord (op := 0b01000) (fun _ => rfl) mode disp, fun found =>
    ⟨fun read => ?_, fun fault => ?readFault⟩⟩
  · have registers := State.cur_of_read found read
    rw [exec_min_of_read found read]
    refine ⟨fun written => ?_, fun fault => ⟨Access.andThen_of_abandoned fault _, ?_⟩⟩
    · rw [Access.andThen_of_ok written, State.skipIf_eq_jump, succ_beq_zero,
        (State.memWrite_ok written).cur, registers]
      simp only [decide_eq_true_eq]
    · have memory : s₂.mem = s.mem :=
        (State.memRead_ok read).mem.trans (State.effectiveAddress_ok found).mem
      rw [← memory]
      exact State.memWrite_abandoned_keeps fault registers
  case readFault =>
    have step : FaultStep s t := (State.effectiveAddress_ok found).fault (State.memRead_abandoned fault)
    exact ⟨(Access.andThen_of_ok found _).trans (Access.andThen_of_abandoned fault _), step.mem,
      step.cur .p⟩

/-- Settles O30: no meaning goes on after its first access faults, and a fault leaves the register file and
memory. -/
theorem faultedOperandAbandons : Obligations.FaultedOperandAbandons := by
  intro s t mode disp
  have kept (step : FaultStep s t) : t.banks = s.banks ∧ t.mem = s.mem := ⟨step.banks, step.mem⟩
  refine ⟨fun p row fault => ⟨?address, kept (State.effectiveAddress_abandoned fault)⟩,
    fun i reader fault => ⟨?read, kept ?readStep⟩, fun p writer fault => ⟨?write, kept ?writeStep⟩⟩
  case address =>
    obtain ⟨k, begins⟩ := exec_memoryReference s mode disp row
    rw [begins, Access.andThen_of_abandoned fault]
  case readStep =>
    have post := s.readOperand_post mode disp
    rwa [fault] at post
  case writeStep =>
    have post := s.writeOperand_post mode disp p.2
    rwa [fault] at post
  case read =>
    have single (k : Word → State → Result) := Access.andThen_of_abandoned fault k
    have address (k : Word × Bool → Word → State → Result) := Access.andThen_of_bind_abandoned fault k
    have float (k : Flt → State → Result) :=
      Access.andThen_of_abandoned (State.readFloat_of_fault fault) k
    fin_cases reader
    exacts [single _, single _, single _, address _, address _, single _, single _, single _, single _,
      float _, float _, float _, float _, single _, address _]
  case write =>
    fin_cases writer
    · exact (exec_stz mode disp s).trans (storeWords_of_fault fault _)
    · exact (exec_sta mode disp s).trans (storeWords_of_fault fault _)
    · exact (exec_stt mode disp s).trans (storeWords_of_fault fault _)
    · exact (exec_stx mode disp s).trans (storeWords_of_fault fault _)
    · exact (exec_std mode disp s).trans (storeWords_of_fault fault _)
    · exact (exec_stf mode disp s).trans (storeWords_of_fault fault _)

end Sys2Proof.Proofs
end

section
/-! A word written and read back through one address (40_memory_reference.md R120). -/

namespace Sys2Proof.Machine

variable {s t u : State} {addr v : Word} {apt : Bool} {pa : PhysAddr}

/-! ### Marker bits do not change where an access goes (20_memory.md R52, R55) -/

/-- Marked entries agree on every bit that is no marker bit. -/
theorem markedFrom.getLsbD {old new : Pte} (h : markedFrom old new) {j : Nat}
    (noMarker : (~~~markerBits).getLsbD j = true) : new.getLsbD j = old.getLsbD j := by
  have same := congrArg (BitVec.getLsbD · j) h.1
  simpa only [BitVec.getLsbD_and, noMarker, Bool.and_true] using same

/-- Marked entries agree on every field without a marker bit. -/
theorem markedFrom.extractLsb' {old new : Pte} (h : markedFrom old new) {lo n : Nat}
    (noMarker : ∀ i < n, (~~~markerBits).getLsbD (lo + i) = true) :
    new.extractLsb' lo n = old.extractLsb' lo n := by
  apply BitVec.eq_of_getLsbD_eq
  intro i hi
  simp only [BitVec.getLsbD_extractLsb', h.getLsbD (noMarker i hi)]

/-- The permits, the ring and the page number of an entry are no marker bits. -/
theorem State.translate_of_marked (step : ReadStep s t) (marked : Marked s t) (kind : AccessKind)
    (addr : Word) (apt : Bool) : t.translate kind addr apt = s.translate kind addr apt := by
  have entry := marked (s.selectTable apt) (addr.extractLsb' 10 6)
  have permits := entry.extractLsb' (lo := 29) (n := 3) (by decide)
  have ring := entry.extractLsb' (lo := 24) (n := 2) (by decide)
  have wide := entry.extractLsb' (lo := 0) (n := 14) (by decide)
  have narrow := entry.extractLsb' (lo := 0) (n := 9) (by decide)
  have permit := entry.getLsbD (j := permitBit kind) (by cases kind <;> decide)
  obtain ⟨pt, rfl⟩ := step
  have table : ({ s with pt := pt } : State).selectTable apt = s.selectTable apt := rfl
  have sameRing : ({ s with pt := pt } : State).ring = s.ring := rfl
  simp only [State.translate, State.pageNumber, table, sameRing, permits, ring, wide, narrow,
    permit]

theorem State.locate_of_marked (step : ReadStep s t) (marked : Marked s t) (kind : AccessKind)
    (addr : Word) (apt : Bool) : t.locate kind addr apt = s.locate kind addr apt := by
  have paged := State.translate_of_marked step marked kind addr apt
  obtain ⟨pt, rfl⟩ := step
  unfold State.locate
  rw [paged]
  rfl

/-! ### Where an access outside the window goes (R45, R46) -/

theorem State.locate_paged (on : s.poni = true) (outside : s.isShadow addr = false) (kind : AccessKind)
    (apt : Bool) : s.locate kind addr apt = s.translate kind addr apt := by
  simp only [State.locate, outside, on, Bool.false_eq_true, if_false, if_true]

theorem State.locate_unpaged (off : s.poni = false) (outside : s.isShadow addr = false)
    (kind : AccessKind) (apt : Bool) : s.locate kind addr apt = .physical (addr.zeroExtend 24) none := by
  simp only [State.locate, outside, off, Bool.false_eq_true, if_false]

/-- A page that the ring may read and write takes both accesses to the word of its page number. -/
theorem State.locate_readWrite (on : s.poni = true) (outside : s.isShadow addr = false)
    (writable : (s.entryFor addr apt).getLsbD 31 = true)
    (readable : (s.entryFor addr apt).getLsbD 30 = true)
    (within : ((s.entryFor addr apt).extractLsb' 24 2).toNat ≤ s.ring.toNat) {kind : AccessKind}
    (data : kind = .read ∨ kind = .write) :
    s.locate kind addr apt =
      .physical (s.pageNumber (s.entryFor addr apt) ++ addr.extractLsb' 0 10)
        (some (s.selectTable apt, addr.extractLsb' 10 6)) := by
  have permits : (s.entryFor addr apt).extractLsb' 29 3 ≠ 0 := fun none => by
    have noWrite := ((permits_eq_zero _).mp none).1
    rw [writable] at noWrite
    cases noWrite
  have permitted : (s.entryFor addr apt).getLsbD (permitBit kind) = true := by
    obtain rfl | rfl := data
    · exact readable
    · exact writable
  rw [State.locate_paged on outside,
    State.translate_physical permits (fun above => absurd (BitVec.lt_def.mp above) (by omega)) permitted]

/-! ### A word read after it was written -/

/-- In the visible window the view that was written is read (R61, R62). -/
theorem State.memRead_memWrite_shadow (visible : s.isShadow addr = true) (apt : Bool) (v : Word) :
    ∃ t, s.memWrite addr apt v = .ok () t ∧ t.memRead addr apt = .ok v t := by
  obtain ⟨table, i, view, place, -, -⟩ := s.shadowLocation_cases addr
  obtain ⟨-, -, -, write⟩ := State.shadow_accesses visible place apt false v 0
  obtain ⟨read, -, -, -⟩ := State.shadow_accesses
    (s := s.setPte table i (shadowWrite (s.pte table i) v view)) visible place apt false v 0
  refine ⟨_, write, read.trans ?_⟩
  rw [State.pte_setPte, if_pos ⟨rfl, rfl⟩, shadowRead_write]

/-- In memory the marker bits of the write do not keep the read from the word written (R55, R57). -/
theorem State.memRead_memWrite_physical {entry : Option (BitVec 2 × BitVec 6)}
    (writes : s.locate .write addr apt = .physical pa entry)
    (reads : s.locate .read addr apt = .physical pa entry) (present : pa.toNat < s.physWords) (v : Word) :
    ∃ t, s.memWrite addr apt v = .ok () t ∧ t.memRead addr apt = .ok v (t.mark .read entry) ∧
      t.pt = (s.mark .write entry).pt := by
  have step := s.mark_readStep .write entry
  have located : (s.mark .write entry).locate .read addr apt = .physical pa entry :=
    (State.locate_of_marked step (s.mark_marked .write entry) .read addr apt).trans reads
  have installed : pa.toNat < (s.mark .write entry).physWords := by
    obtain ⟨pt, marked⟩ := step
    rw [marked]
    exact present
  refine ⟨{ s.mark .write entry with mem := s.mem.store pa (.word v) }, ?_, ?_, rfl⟩
  · rw [State.memWrite, writes, State.writeAt_physical present]
  · have word : (s.mem.writeWord pa v).readWord pa = v := by rw [Memory.readWord_writeWord, if_pos rfl]
    have read := State.readAt_physical (s := { s.mark .write entry with mem := s.mem.store pa (.word v) })
      installed .read entry
    exact (congrArg (State.readAt _ .read) located).trans (read.trans (congrArg (Access.ok · _) word))

theorem State.pte_of_pt (same : t.pt = u.pt) (table : BitVec 2) (i : BitVec 6) :
    t.pte table i = u.pte table i := by
  unfold State.pte
  simp only [same]

/-- The entry of a page written and then read has both marker bits (R55). -/
theorem State.markers_after_write_read {table : BitVec 2} {i : BitVec 6}
    (same : t.pt = (s.mark .write (some (table, i))).pt) :
    ((t.mark .read (some (table, i))).pte table i).getLsbD 28 = true ∧
      ((t.mark .read (some (table, i))).pte table i).getLsbD 27 = true := by
  have entry : t.pte table i = s.pte table i ||| 0x18000000 := by
    rw [State.pte_of_pt same, State.mark_write, State.pte_setPte, if_pos ⟨rfl, rfl⟩]
  rw [State.mark_of_ne_write (by decide), State.pte_setPte, if_pos ⟨rfl, rfl⟩, entry]
  simp

/-! ### STA and then LDA (R105, R108) -/

/-- STA and LDA make the same access, whatever A became in between, when that access gives the word back. -/
theorem exec_sta_lda {disp : BitVec 8} (junk : Word)
    (written : s.memWrite (s.cur .b + disp.signExtend 16) true (s.cur .a) = .ok () t)
    (read : t.memRead (s.cur .b + disp.signExtend 16) true = .ok (s.cur .a) u) :
    ∃ s₁ s₂, exec (.sta .bRel disp) s = .next s₁ ∧
      exec (.lda .bRel disp) (s₁.setCur .a junk) = .next s₂ ∧ s₂.cur .a = s.cur .a ∧ s₂.pt = u.pt := by
  have stored : exec (.sta .bRel disp) s = .next (t.jump (s.cur .p + 1)) :=
    (exec_sta .bRel disp s).trans (storeWords_of_written rfl
      ((s.memWriteList_singleton true _ _).trans written))
  have base : ((t.jump (s.cur .p + 1)).setCur .a junk).cur .b = s.cur .b := by
    simp [(State.memWrite_ok written).cur]
  have found : ((t.jump (s.cur .p + 1)).setCur .a junk).effectiveAddress .bRel disp =
      .ok (s.cur .b + disp.signExtend 16, true) ((t.jump (s.cur .p + 1)).setCur .a junk) := by
    rw [← base]
    rfl
  have loaded := loadOperand_of_read found
    (State.memRead_setCur_ok (State.memRead_setCur_ok read .p (s.cur .p + 1)) .a junk)
    (r := .a) (by decide)
  exact ⟨_, _, stored, loaded, by simp, rfl⟩

end Sys2Proof.Machine

namespace Sys2Proof.Proofs

open Sys2Proof.Machine

/-- Settles O14, by where the address goes: to the window, to memory with paging off, or to a page. -/
theorem storeThenLoadRoundTrips : Obligations.StoreThenLoadRoundTrips := by
  intro s disp junk addr t vpn e permitted installed
  cases outside : s.isShadow addr with
  | true =>
    obtain ⟨u, written, read⟩ := State.memRead_memWrite_shadow outside true (s.cur .a)
    obtain ⟨s₁, s₂, sta, lda, value, -⟩ := exec_sta_lda junk written read
    exact ⟨s₁, s₂, sta, lda, value, fun _ => nofun⟩
  | false =>
    cases paging : s.poni with
    | false =>
      have located (kind : AccessKind) := State.locate_unpaged paging outside kind true
      obtain ⟨u, written, read, -⟩ := State.memRead_memWrite_physical (located .write) (located .read)
        (installed _ _ (located .write)) (s.cur .a)
      obtain ⟨s₁, s₂, sta, lda, value, -⟩ := exec_sta_lda junk written read
      exact ⟨s₁, s₂, sta, lda, value, nofun⟩
    | true =>
      obtain ⟨writable, readable, within⟩ := permitted paging outside
      have located {kind : AccessKind} (data : kind = .read ∨ kind = .write) :=
        State.locate_readWrite (apt := true) paging outside writable readable within data
      obtain ⟨u, written, read, same⟩ := State.memRead_memWrite_physical (located (.inr rfl))
        (located (.inl rfl)) (installed _ _ (located (.inr rfl))) (s.cur .a)
      obtain ⟨s₁, s₂, sta, lda, value, tables⟩ := exec_sta_lda junk written read
      refine ⟨s₁, s₂, sta, lda, value, fun _ _ => ?_⟩
      rw [State.pte_of_pt tables t vpn]
      exact State.markers_after_write_read same

end Sys2Proof.Proofs
end

section
/-! The words of formats CJ, AR and SK, and the word of EXR (30_encoding.md R83, R86, R87). -/

namespace Sys2Proof

open Sys2Proof.Claims

/-! ### Fields joined to an opcode -/

theorem zeroExtend_eq_append {n : Nat} (m : Nat) (low : BitVec n) :
    low.zeroExtend (m + n) = 0#m ++ low := by
  apply BitVec.eq_of_toNat_eq
  have fits : low.toNat < 2 ^ (m + n) :=
    low.isLt.trans_le (Nat.pow_le_pow_right two_pos (Nat.le_add_left n m))
  simp [BitVec.toNat_append, Nat.mod_eq_of_lt fits]

/-- A field added to an opcode with zeros in its place joins it. -/
theorem append_zero_or_zeroExtend {m n : Nat} (high : BitVec m) (low : BitVec n) :
    (high ++ 0#n) ||| low.zeroExtend (m + n) = high ++ low := by
  rw [zeroExtend_eq_append, BitVec.or_append, BitVec.or_zero, BitVec.zero_or]

theorem lowWord_eq_append (high : BitVec 8) (n : BitVec 8) : lowWord (high ++ 0#8) n = high ++ n :=
  append_zero_or_zeroExtend high n

theorem regsWord_eq_append (high : BitVec 10) (sr dr : RegField) :
    regsWord (high ++ 0#6) sr dr = high ++ (codeOfReg sr ++ codeOfReg dr) :=
  append_zero_or_zeroExtend high _

/-- A word whose destination field is ignored holds any bits there (R92). -/
theorem regsWord_none_or_eq_append (high : BitVec 10) (sr : RegField) (ignored : BitVec 3) :
    regsWord (high ++ 0#6) sr none ||| ignored.zeroExtend 16 = high ++ (codeOfReg sr ++ ignored) := by
  have wide : ignored.zeroExtend 16 = 0#10 ++ ignored.zeroExtend 6 :=
    (BitVec.setWidth_setWidth (v := 6) (by decide)).symm.trans (zeroExtend_eq_append 10 _)
  have fields : codeOfReg sr ++ 0#3 ||| ignored.zeroExtend 6 = codeOfReg sr ++ ignored :=
    append_zero_or_zeroExtend _ _
  rw [regsWord_eq_append, wide, BitVec.or_append, BitVec.or_zero]
  exact congrArg (high ++ ·) fields

theorem regOfCode_codeOfReg (r : RegField) : regOfCode (codeOfReg r) = r := by
  rcases r with _ | _ | _ <;> rfl

theorem srField_append (high : BitVec 10) (sr : RegField) (dr : BitVec 3) :
    srField (high ++ (codeOfReg sr ++ dr)) = sr := by
  rw [srField, field, BitVec.extractLsb'_append_eq_of_add_le (by decide),
    BitVec.extractLsb'_append_eq_left, regOfCode_codeOfReg]

theorem drField_append (high : BitVec 10) (sr : BitVec 3) (dr : RegField) :
    drField (high ++ (sr ++ codeOfReg dr)) = dr := by
  rw [drField, field, BitVec.extractLsb'_append_eq_of_add_le (by decide),
    BitVec.extractLsb'_append_eq_right, regOfCode_codeOfReg]

/-! ### A function and a byte: formats CJ and AR -/

/-- The conditional jumps by their condition `w[10:8]`. -/
def conditionalJump (condition : BitVec 3) : BitVec 8 → Instr :=
  ![.jap, .jan, .jaz, .jaf, .jpc, .jnc, .jxz, .jxn] condition.toFin

/-- The argument instructions by their function `w[10:8]`. -/
def argumentInstruction (function : BitVec 3) : BitVec 8 → Instr :=
  ![.sab, .saa, .sat, .sax, .aab, .aaa, .aat, .aax] function.toFin

theorem decodeConditionalJump_eq (w : Word) :
    decodeConditionalJump w = conditionalJump (field w 8 3) (lowByte w) := by
  unfold decodeConditionalJump
  obtain ⟨condition⟩ := field w 8 3
  fin_cases condition <;> rfl

theorem decodeArgument_eq (w : Word) :
    decodeArgument w = argumentInstruction (field w 8 3) (lowByte w) := by
  unfold decodeArgument
  obtain ⟨function⟩ := field w 8 3
  fin_cases function <;> rfl

/-- The decoder gives back the function and the byte of a word in a group of eight rows. -/
theorem decode_lowWord {op : BitVec 5} {group : Word → Instr} {table : BitVec 3 → BitVec 8 → Instr}
    (slot : ∀ w, field w 11 5 = op → decode w = .ok (group w))
    (rows : ∀ w, group w = table (field w 8 3) (lowByte w)) (function : BitVec 3) (n : BitVec 8) :
    decode (lowWord (op ++ function ++ 0#8) n) = .ok (table function n) := by
  have opcode : field (op ++ function ++ n) 11 5 = op :=
    (BitVec.extractLsb'_append_eq_of_le (by decide)).trans BitVec.extractLsb'_append_eq_left
  have row : field (op ++ function ++ n) 8 3 = function :=
    (BitVec.extractLsb'_append_eq_of_le (by decide)).trans BitVec.extractLsb'_append_eq_right
  have byte : lowByte (op ++ function ++ n) = n := BitVec.extractLsb'_append_eq_right
  rw [lowWord_eq_append, slot _ opcode, rows, row, byte]

theorem decode_conditionalJump (condition : BitVec 3) (disp : BitVec 8) :
    decode (lowWord (0b10110#5 ++ condition ++ 0#8) disp) = .ok (conditionalJump condition disp) :=
  decode_lowWord (fun w slot => by unfold decode; rw [slot]; rfl) decodeConditionalJump_eq condition disp

theorem decode_argument (function : BitVec 3) (arg : BitVec 8) :
    decode (lowWord (0b11110#5 ++ function ++ 0#8) arg) = .ok (argumentInstruction function arg) :=
  decode_lowWord (fun w slot => by unfold decode; rw [slot]; rfl) decodeArgument_eq function arg

/-! ### Two register fields: format SK, and EXR of format XR -/

/-- The skips by their condition `w[10:8]`. -/
def skipInstruction (condition : BitVec 3) : RegField → RegField → Instr :=
  ![.skpEql, .skpGeq, .skpGre, .skpMgre, .skpUeq, .skpLss, .skpLst, .skpMlst] condition.toFin

theorem decodeSkip_eq (w : Word) :
    decodeSkip w = skipInstruction (field w 8 3) (srField w) (drField w) := by
  unfold decodeSkip
  obtain ⟨condition⟩ := field w 8 3
  fin_cases condition <;> rfl

/-- A field above the low six bits. -/
theorem field_append_six {lo : Nat} (high : BitVec 10) (low : BitVec 6) (above : 6 ≤ lo) (n : Nat) :
    field (high ++ low) lo n = high.extractLsb' (lo - 6) n := BitVec.extractLsb'_append_eq_of_le above

theorem decode_skip (condition : BitVec 3) (sr dr : RegField) :
    decode (regsWord (0b11000#5 ++ condition ++ 0#2 ++ 0#6) sr dr) =
      .ok (skipInstruction condition sr dr) := by
  have inOpcode (lo n : Nat) : (0b11000#5 ++ condition ++ 0#2).extractLsb' (2 + lo) n =
      (0b11000#5 ++ condition).extractLsb' lo n :=
    (BitVec.extractLsb'_append_eq_of_le (by omega)).trans (by rw [Nat.add_sub_cancel_left])
  generalize low : codeOfReg sr ++ codeOfReg dr = fields
  have opcode : field (0b11000#5 ++ condition ++ 0#2 ++ fields) 11 5 = 0b11000#5 :=
    (field_append_six _ fields (by decide) 5).trans
      ((inOpcode 3 5).trans BitVec.extractLsb'_append_eq_left)
  have row : field (0b11000#5 ++ condition ++ 0#2 ++ fields) 8 3 = condition :=
    (field_append_six _ fields (by decide) 3).trans
      ((inOpcode 0 3).trans BitVec.extractLsb'_append_eq_right)
  have format : field (0b11000#5 ++ condition ++ 0#2 ++ fields) 6 2 = 0 :=
    (field_append_six _ fields (by decide) 2).trans BitVec.extractLsb'_append_eq_right
  rw [regsWord_eq_append, low, decode_extended opcode, decodeExtended, if_pos format, decodeSkip_eq, row,
    ← low, srField_append, drField_append]

/-- EXR ignores its destination field (R92). -/
theorem decode_exr (sr : RegField) (ignored : BitVec 3) :
    decode (regsWord 0o140600 sr none ||| ignored.zeroExtend 16) = .ok (.exr sr) := by
  have word := regsWord_none_or_eq_append 0b1100000110 sr ignored
  have inOpcode (lo n : Nat) (above : 6 ≤ lo) :=
    field_append_six 0b1100000110 (codeOfReg sr ++ ignored) above n
  have opcode := inOpcode 11 5 (by decide)
  have row := inOpcode 6 5 (by decide)
  have format := inOpcode 6 2 (by decide)
  refine (congrArg decode word).trans ((decode_extended opcode).trans ?_)
  unfold decodeExtended
  rw [row, format, srField_append]
  rfl

end Sys2Proof
end

section
/-! What the jumps, the skips and EXR do, and the conditions they test (41_control_transfer.md). -/

namespace Sys2Proof.Machine

/-! ### Sign and comparison of words -/

theorem getLsbD_15 (v : Word) : v.getLsbD 15 = decide (v.toInt < 0) :=
  (BitVec.msb_eq_getLsbD_last v).symm.trans BitVec.msb_eq_toInt

theorem getLsbD_15_iff (v : Word) : v.getLsbD 15 = true ↔ v.toInt < 0 := by
  rw [getLsbD_15, decide_eq_true_iff]

theorem not_getLsbD_15_iff (v : Word) : (!v.getLsbD 15) = true ↔ 0 ≤ v.toInt := by
  rw [Bool.not_eq_true', ← Bool.not_eq_true, getLsbD_15_iff, not_lt]

/-- The difference of R140 is the subtraction modulo `2^16`. -/
theorem skipDiff_eq_sub (d v : Word) : skipDiff d v = d - v :=
  (addSum_eq_sum16 d (~~~v) true).trans (sum16_not d v)

theorem skipCarry_iff (d v : Word) : skipCarry d v = true ↔ v.toNat ≤ d.toNat := by
  rw [show skipCarry d v = decide _ from addCarry_eq d (~~~v) true, decide_eq_true_iff, carry_sum17_not,
    BitVec.le_def]

/-- As a signed word the difference is the true one, wrapped. -/
theorem toInt_skipDiff (d v : Word) : (skipDiff d v).toInt = (d.toInt - v.toInt).bmod (2 ^ 16) := by
  rw [skipDiff_eq_sub, BitVec.toInt_sub]

/-- `ov` of R140: the true difference is no signed word. -/
theorem skipOverflow_iff (d v : Word) :
    skipOverflow d v = true ↔ d.toInt - v.toInt < -2 ^ 15 ∨ 2 ^ 15 ≤ d.toInt - v.toInt := by
  have wrapped := toInt_skipDiff d v
  have dRange := And.intro d.le_toInt d.toInt_lt
  have vRange := And.intro v.le_toInt v.toInt_lt
  rw [Int.bmod_def] at wrapped
  simp only [skipOverflow, Bool.and_eq_true, bne_iff_ne, ne_eq, getLsbD_15, decide_eq_decide]
  omega

/-- The sign of the difference, inverted where the subtraction overflows, is the signed comparison. -/
theorem sign_xor_skipOverflow_iff (d v : Word) :
    ((skipDiff d v).getLsbD 15 ^^ skipOverflow d v) = true ↔ d.toInt < v.toInt := by
  have wrapped := toInt_skipDiff d v
  have dRange := And.intro d.le_toInt d.toInt_lt
  have vRange := And.intro v.le_toInt v.toInt_lt
  rw [Int.bmod_def] at wrapped
  rw [Bool.xor_iff_ne, ne_eq, Bool.eq_iff_iff, getLsbD_15_iff, skipOverflow_iff]
  omega

/-! ### Conditional jumps and skips as one jump -/

theorem State.jumpIf_eq_jump (s : State) (c : Bool) (disp : BitVec 8) :
    s.jumpIf c disp = s.jump (s.cur .p + if c then disp.signExtend 16 else 1) := by cases c <;> rfl

/-- A conditional jump by the proposition its condition tests. -/
theorem State.jumpIf_of_iff {s : State} {c : Bool} {P : Prop} [Decidable P] (test : c = true ↔ P)
    (disp : BitVec 8) : s.jumpIf c disp = s.jump (s.cur .p + if P then disp.signExtend 16 else 1) := by
  rw [s.jumpIf_eq_jump]
  simp only [test]

/-- A skip by the proposition its condition tests. -/
theorem State.skipIf_of_iff {s : State} {c : Bool} {P : Prop} [Decidable P] (test : c = true ↔ P) :
    s.skipIf c = s.jump (s.cur .p + if P then 2 else 1) := by
  rw [s.skipIf_eq_jump]
  simp only [test]

/-- JPC and JNC jump from P as it was, on the X they counted (R136, R137). -/
theorem State.countX_jumpIf_of_iff {s : State} {c : Word → Bool} {P : Prop} [Decidable P]
    (test : c (s.cur .x + 1) = true ↔ P) (disp : BitVec 8) :
    s.countX.jumpIf (c (s.countX.cur .x)) disp =
      (s.setCur .x (s.cur .x + 1)).jump (s.cur .p + if P then disp.signExtend 16 else 1) := by
  have x : s.countX.cur .x = s.cur .x + 1 := by simp [State.countX]
  have p : s.countX.cur .p = s.cur .p := by simp [State.countX]
  rw [x, State.jumpIf_of_iff test, p, State.countX]

/-! ### EXR (R149) -/

variable {s : State} {sr : RegField}

theorem exec_exr_of_exr (h : s.fieldValue sr &&& 0o177700 = 0o140600) :
    exec (.exr sr) s = .next (s.setFlag .z true).next := if_pos h

/-- A word that is no EXR runs as the Dispatcher's table says. -/
theorem exec_exr_of_decode {i : Instr} (notExr : s.fieldValue sr &&& 0o177700 ≠ 0o140600)
    (decoded : decode (s.fieldValue sr) = .ok i) : exec (.exr sr) s = exec i s := by
  have executed : s.executed (.exr sr) = some i := by
    simp only [State.executed, if_neg notExr, decoded]
  exact (exec_of_executed executed).1

theorem exec_exr_of_illegal {e : IllegalWord} (notExr : s.fieldValue sr &&& 0o177700 ≠ 0o140600)
    (illegal : decode (s.fieldValue sr) = .error e) : exec (.exr sr) s = .next s.illegalInstruction := by
  show execExr sr s = _
  simp only [execExr, if_neg notExr, illegal]

end Sys2Proof.Machine
end

section
/-! The statements of 41_control_transfer.md. -/

namespace Sys2Proof.Proofs

open Sys2Proof.Machine Sys2Proof.Claims

/-- Settles O34: a conditional jump is one jump, by `P + d` or by 1, and a read that faults leaves the
registers. -/
theorem jumps : Obligations.Jumps := by
  intro s t mode disp ea apt
  refine ⟨decode_mrWord (op := 0b10101) (fun _ => rfl) mode disp,
    decode_mrWord (op := 0b10111) (fun _ => rfl) mode disp,
    decode_conditionalJump 0 disp, decode_conditionalJump 1 disp, decode_conditionalJump 2 disp,
    decode_conditionalJump 3 disp, decode_conditionalJump 4 disp, decode_conditionalJump 5 disp,
    decode_conditionalJump 6 disp, decode_conditionalJump 7 disp, fun found => ⟨?jmp, ?jpl⟩,
    fun fault => ?fault, ?jap, ?jan, ?jaz, ?jaf, ?jpc, ?jnc, ?jxz, ?jxn⟩
  case jmp => exact Access.andThen_of_ok found _
  case jpl => exact (Access.andThen_of_ok found _).trans (by rw [(State.effectiveAddress_ok found).cur])
  case fault =>
    have step := State.effectiveAddress_abandoned fault
    exact ⟨Access.andThen_of_abandoned fault _, Access.andThen_of_abandoned fault _, step.cur .p,
      step.cur .l⟩
  case jap => exact congrArg _ (State.jumpIf_of_iff (not_getLsbD_15_iff _) disp)
  case jan => exact congrArg _ (State.jumpIf_of_iff (getLsbD_15_iff _) disp)
  case jaz => exact congrArg _ (State.jumpIf_of_iff beq_iff_eq disp)
  case jaf => exact congrArg _ (State.jumpIf_of_iff bne_iff_ne disp)
  case jpc =>
    exact congrArg _ (State.countX_jumpIf_of_iff (c := (!·.getLsbD 15)) (not_getLsbD_15_iff _) disp)
  case jnc =>
    exact congrArg _ (State.countX_jumpIf_of_iff (c := (·.getLsbD 15)) (getLsbD_15_iff _) disp)
  case jxz => exact congrArg _ (State.jumpIf_of_iff beq_iff_eq disp)
  case jxn => exact congrArg _ (State.jumpIf_of_iff (getLsbD_15_iff _) disp)

/-- Settles O35: the difference, its sign, its overflow and its carry are the four comparisons. -/
theorem skipsCompareRegisters : Obligations.SkipsCompareRegisters := by
  intro s sr dr d v
  refine ⟨decode_skip 0 sr dr, decode_skip 1 sr dr, decode_skip 2 sr dr, decode_skip 3 sr dr,
    decode_skip 4 sr dr, decode_skip 5 sr dr, decode_skip 6 sr dr, decode_skip 7 sr dr,
    ?eql, ?geq, ?gre, ?mgre, ?ueq, ?lss, ?lst, ?mlst⟩
  all_goals refine congrArg Host.Outcome.next (State.skipIf_of_iff ?_)
  case eql => rw [beq_iff_eq, skipDiff_eq_sub, sub_eq_zero]
  case ueq => rw [bne_iff_ne, skipDiff_eq_sub, sub_ne_zero]
  case geq => rw [Bool.not_eq_true', skipDiff_eq_sub]
  case lss => beta_reduce; rw [skipDiff_eq_sub]
  case gre => rw [Bool.not_eq_true', ← Bool.not_eq_true, sign_xor_skipOverflow_iff, not_lt]
  case lst => exact sign_xor_skipOverflow_iff _ _
  case mgre => exact skipCarry_iff _ _
  case mlst => rw [Bool.not_eq_true', ← Bool.not_eq_true, skipCarry_iff, not_le]

/-- Settles O36, by what the register holds: an EXR, another instruction (SAA is one), or no instruction. -/
theorem executeRegister : Obligations.ExecuteRegister := by
  intro s sr ignored v
  refine ⟨decode_exr sr ignored, fun isExr => ?exr, fun notExr =>
    ⟨fun i => exec_exr_of_decode notExr, fun e => exec_exr_of_illegal notExr, fun arg isSaa => ?saa⟩⟩
  case exr => rw [exec_exr_of_exr isExr, State.next, State.cur_setFlag]
  case saa =>
    have decoded : decode v = .ok (.saa arg) := by rw [isSaa]; exact decode_argument 1 arg
    rw [exec_exr_of_decode notExr decoded]
    exact congrArg _ (State.next_setCur rfl (by decide) _)

end Sys2Proof.Proofs
end

section
/-! The words of formats RO and BO (30_encoding.md R83, R86). -/

namespace Sys2Proof

open Sys2Proof.Claims

/-! ### Modifiers and two register fields: format RO -/

/-- The register operations by their function `w[10:8]`; RADD takes ADC and AD1 from it. -/
def registerOperation (function : BitVec 3) : (cm1 cld : Bool) → (sr dr : RegField) → Instr :=
  ![.swap, .rand, .rexo, .rora, .radd false false, .radd false true, .radd true false,
    .radd true true] function.toFin

theorem getLsbD_field (w : Word) (lo : Nat) {n i : Nat} (inside : i < n) :
    (field w lo n).getLsbD i = fieldBit w (lo + i) := by
  simp [field, fieldBit, inside]

theorem decodeRegisterOp_eq (w : Word) :
    decodeRegisterOp w =
      registerOperation (field w 8 3) (fieldBit w 7) (fieldBit w 6) (srField w) (drField w) := by
  have bit (i : Nat) (inside : i < 3) : fieldBit w (8 + i) = (field w 8 3).getLsbD i :=
    (getLsbD_field w 8 inside).symm
  have low : field w 8 2 = (field w 8 3).extractLsb' 0 2 := by
    ext i inside
    simp [field, show i < 3 by omega]
  unfold decodeRegisterOp
  rw [low, bit 0 (by decide), bit 1 (by decide), bit 2 (by decide)]
  obtain ⟨function⟩ := field w 8 3
  fin_cases function <;> rfl

/-- The opcode, the function and the modifiers of a word of format RO are its upper ten bits. -/
theorem roWord_eq_append (function : BitVec 3) (cm1 cld : Bool) (sr dr : RegField) :
    roWord (0b11001#5 ++ function ++ 0#8) cm1 cld sr dr =
      0b11001#5 ++ function ++ (BitVec.ofBool cm1 ++ BitVec.ofBool cld) ++
        (codeOfReg sr ++ codeOfReg dr) := by
  have modified : ∀ (function : BitVec 3) (cm1 cld : Bool),
      0b11001#5 ++ function ++ 0#8 ||| (if cm1 then 0o200 else 0) ||| (if cld then 0o100 else 0) =
        0b11001#5 ++ function ++ (BitVec.ofBool cm1 ++ BitVec.ofBool cld) ++ 0#6 := by decide
  rw [← regsWord_eq_append, ← modified]
  simp only [roWord, regsWord]
  ac_rfl

theorem getLsbD_modifiers : ∀ cm1 cld : Bool,
    (BitVec.ofBool cm1 ++ BitVec.ofBool cld).getLsbD 1 = cm1 ∧
    (BitVec.ofBool cm1 ++ BitVec.ofBool cld).getLsbD 0 = cld := by decide

theorem decode_registerOperation (function : BitVec 3) (cm1 cld : Bool) (sr dr : RegField) :
    decode (roWord (0b11001#5 ++ function ++ 0#8) cm1 cld sr dr) =
      .ok (registerOperation function cm1 cld sr dr) := by
  rw [roWord_eq_append]
  generalize low : codeOfReg sr ++ codeOfReg dr = fields
  generalize word : 0b11001#5 ++ function ++ (BitVec.ofBool cm1 ++ BitVec.ofBool cld) ++ fields = w
  have opcode : field w 11 5 = 0b11001#5 := by
    rw [← word]
    exact (field_append_six _ fields (by decide) 5).trans
      ((BitVec.extractLsb'_append_eq_of_le (by decide)).trans BitVec.extractLsb'_append_eq_left)
  have row : field w 8 3 = function := by
    rw [← word]
    exact (field_append_six _ fields (by decide) 3).trans
      ((BitVec.extractLsb'_append_eq_of_le (by decide)).trans BitVec.extractLsb'_append_eq_right)
  have modifiers : field w 6 2 = BitVec.ofBool cm1 ++ BitVec.ofBool cld := by
    rw [← word]
    exact (field_append_six _ fields (by decide) 2).trans BitVec.extractLsb'_append_eq_right
  have complement : fieldBit w 7 = cm1 := by
    rw [← getLsbD_field w 6 (n := 2) (i := 1) (by decide), modifiers]
    exact (getLsbD_modifiers cm1 cld).1
  have clear : fieldBit w 6 = cld := by
    rw [← getLsbD_field w 6 (n := 2) (i := 0) (by decide), modifiers]
    exact (getLsbD_modifiers cm1 cld).2
  have slot : decode w = .ok (decodeRegisterOp w) := by
    unfold decode
    rw [opcode]
    rfl
  rw [slot, decodeRegisterOp_eq, row, complement, clear, ← word, ← low, srField_append, drField_append]

/-! ### A bit number and a register field: format BO -/

/-- The bit instructions by their function `w[10:7]`. -/
def bitInstruction (function : BitVec 4) : Nat → RegField → Instr :=
  ![.bsetZro, .bsetOne, .bsetBcm, .bsetBac, .bskpZro, .bskpOne, .bskpBcm, .bskpBac, .bstc, .bsta,
    .bldc, .blda, .banc, .band, .borc, .bora] function.toFin

theorem decodeBit_eq (w : Word) :
    decodeBit w = bitInstruction (field w 7 4) (field w 3 4).toNat (drField w) := by
  unfold decodeBit
  obtain ⟨function⟩ := field w 7 4
  fin_cases function <;> rfl

theorem boWord_eq_append (high : BitVec 9) (n : BitVec 4) (dr : RegField) :
    boWord (high ++ 0#7) n dr = high ++ (n ++ codeOfReg dr) := append_zero_or_zeroExtend high _

theorem decode_bit (function : BitVec 4) (n : BitVec 4) (dr : RegField) :
    decode (boWord (0b11111#5 ++ function ++ 0#7) n dr) = .ok (bitInstruction function n.toNat dr) := by
  have opcode : field (0b11111#5 ++ function ++ (n ++ codeOfReg dr)) 11 5 = 0b11111#5 :=
    (BitVec.extractLsb'_append_eq_of_le (by decide)).trans BitVec.extractLsb'_append_eq_left
  have row : field (0b11111#5 ++ function ++ (n ++ codeOfReg dr)) 7 4 = function :=
    (BitVec.extractLsb'_append_eq_of_le (by decide)).trans BitVec.extractLsb'_append_eq_right
  have number : field (0b11111#5 ++ function ++ (n ++ codeOfReg dr)) 3 4 = n :=
    (BitVec.extractLsb'_append_eq_of_add_le (by decide)).trans BitVec.extractLsb'_append_eq_left
  have register : drField (0b11111#5 ++ function ++ (n ++ codeOfReg dr)) = dr := by
    rw [drField, field, BitVec.extractLsb'_append_eq_of_add_le (by decide),
      BitVec.extractLsb'_append_eq_right, regOfCode_codeOfReg]
  have slot (w : Word) (h : field w 11 5 = 0b11111#5) : decode w = .ok (decodeBit w) := by
    unfold decode
    rw [h]
    rfl
  rw [boWord_eq_append, slot _ opcode, decodeBit_eq, row, number, register]

end Sys2Proof
end

section
/-! How register operations and bit instructions end, and the signed reading of the adder
(42_register_ops.md). -/

namespace Sys2Proof.Machine

open Sys2Proof.Claims

/-! ### The adder as signed addition (R150) -/

theorem toInt_sum16 (a b : Word) (cin : Bool) :
    (sum16 a b cin).toInt = (a.toInt + b.toInt + cin.toNat).bmod (2 ^ 16) := by
  rw [sum16, sum17, BitVec.toInt_ofNat', a.toInt_eq_toNat_bmod, b.toInt_eq_toNat_bmod, Int.add_assoc,
    Int.bmod_add_bmod, Int.add_left_comm, Int.bmod_add_bmod, Int.add_left_comm, ← Int.add_assoc]
  push_cast
  rfl

/-- The overflow of R150: the true signed sum is no signed word. -/
theorem sumOverflows_iff (a b : Word) (cin : Bool) :
    sumOverflows a b cin = true ↔
      a.toInt + b.toInt + cin.toNat < -32768 ∨ 32767 < a.toInt + b.toInt + cin.toNat := by
  have wrapped := toInt_sum16 a b cin
  have aRange := And.intro a.le_toInt a.toInt_lt
  have bRange := And.intro b.le_toInt b.toInt_lt
  have carry := cin.toNat_le
  rw [Int.bmod_def] at wrapped
  simp only [sumOverflows, Bool.and_eq_true, beq_iff_eq, bne_iff_ne, ne_eq, getLsbD_15, decide_eq_decide]
  omega

theorem cur_setCQO (s : State) (carry overflow : Bool) (r : Reg) :
    (setCQO s carry overflow).cur r = s.cur r := by simp [setCQO]

theorem flag_setCQO_c (s : State) (carry overflow : Bool) :
    (setCQO s carry overflow).flag .c = carry := by simp [setCQO]

theorem flag_setCQO_q (s : State) (carry overflow : Bool) :
    (setCQO s carry overflow).flag .q = overflow := by simp [setCQO]

theorem flag_setCQO_o (s : State) (carry overflow : Bool) :
    (setCQO s carry overflow).flag .o = (s.flag .o || overflow) := by simp [setCQO]

theorem flag_setCQO_of_ne (s : State) (carry overflow : Bool) {g : Flag} (notC : g ≠ .c) (notQ : g ≠ .q)
    (notO : g ≠ .o) : (setCQO s carry overflow).flag g = s.flag g := by simp [setCQO, notC, notQ, notO]

/-! ### Register fields written (R151) -/

theorem State.setCur_setCur (s : State) (r : Reg) (v w : Word) :
    (s.setCur r v).setCur r w = s.setCur r w := by
  cases r <;> simp [State.setCur, State.setReg, State.setBank_setBank, Bank.set]

/-- A register operation writes its destination and goes on, unless the write was a jump. -/
theorem State.roFinish_eq {s u : State} (p : u.cur .p = s.cur .p) (dr : RegField) (v : Word) :
    u.roFinish dr v = endUnlessP s (writeField u dr v) (dr == some .p) := by
  cases dr with
  | none => exact State.next_eq_jump p
  | some r =>
    cases r
    case p => rfl
    all_goals exact State.next_setCur p (by decide) v

/-- SWAP writes the source field, then the destination field (R152); a write to P is a jump. -/
theorem exec_swap (cm1 cld : Bool) (sr dr : RegField) (s : State) :
    exec (.swap cm1 cld sr dr) s =
      .next (endUnlessP s (writeField (writeField s sr (s.roDest cld dr)) dr (s.roSource cm1 sr))
        (sr == some .p || dr == some .p)) := by
  have kept {q : Reg} (notP : .p ≠ q) (v : Word) : (s.setCur q v).cur .p = s.cur .p := by
    rw [State.cur_setCur, if_neg notP]
  cases sr with
  | none => exact congrArg _ (State.roFinish_eq rfl dr _)
  | some q =>
    cases q
    case p =>
      cases dr with
      | none => rfl
      | some r =>
        cases r
        case p => exact congrArg _ (State.setCur_setCur s .p _ _).symm
        all_goals exact congrArg _ (State.setCur_comm s _ .p _ _ (by decide))
    all_goals exact congrArg _ (State.roFinish_eq (kept (by decide) _) dr _)

/-! ### The operand bit (R170) -/

/-- A bit written is the bit cleared and the new one put in its place. -/
theorem setBitTo_eq {w : Nat} (bits : BitVec w) (i : Nat) (v : Bool) :
    setBitTo bits i v = bits &&& ~~~(1#w <<< i) ||| (BitVec.ofBool v).zeroExtend w <<< i := by
  cases v with
  | false => simp [setBitTo]
  | true =>
    have one : (BitVec.ofBool true).zeroExtend w = 1#w := by
      apply BitVec.eq_of_toNat_eq
      simp
    rw [one]
    ext j inside
    simp only [setBitTo, if_true, BitVec.getElem_or, BitVec.getElem_and, BitVec.getElem_not]
    cases bits[j] <;> cases (1#w <<< i)[j] <;> rfl

/-- The write of a bit of a register other than P, or of STS, leaves P. -/
theorem State.cur_p_writeBit (s : State) (bn : Nat) {dr : RegField} (notP : dr ≠ some .p) (v : Bool) :
    (s.writeBit bn dr v).cur .p = s.cur .p := by
  cases dr with
  | none => simp only [State.writeBit]; split <;> simp
  | some r =>
    have other : Reg.p ≠ r := fun same => notP (congrArg some same.symm)
    simp [State.writeBit, other]

/-- A bit instruction goes on after its writes, unless one of them was a jump. -/
theorem State.bitFinish_eq {s u : State} {dr : RegField} (p : dr ≠ some .p → u.cur .p = s.cur .p) :
    u.bitFinish dr = endUnlessP s u (dr == some .p) := by
  by_cases isP : dr = some .p
  · rw [State.bitFinish, if_pos isP, isP]; rfl
  · rw [State.bitFinish, if_neg isP, State.next_eq_jump (p isP), endUnlessP, if_neg (by simpa using isP)]

theorem writeBitAndEnd_eq (s : State) (bn : Nat) (dr : RegField) (v : Bool) :
    writeBitAndEnd bn dr v s = .next (endUnlessP s (s.writeBit bn dr v) (dr == some .p)) :=
  congrArg _ (State.bitFinish_eq fun notP => s.cur_p_writeBit bn notP v)

theorem writeBitThenK_eq (s : State) (bn : Nat) (dr : RegField) (v k : Bool) :
    writeBitThenK bn dr v k s =
      .next (endUnlessP s ((s.writeBit bn dr v).setFlag .k k) (dr == some .p)) :=
  congrArg _ (State.bitFinish_eq fun notP => (State.cur_setFlag ..).trans (s.cur_p_writeBit bn notP v))

theorem writeK_eq (s : State) (v : Bool) : writeK v s = .next ((s.setFlag .k v).jump (s.cur .p + 1)) :=
  congrArg _ (State.next_eq_jump (State.cur_setFlag ..))

end Sys2Proof.Machine
end

section
/-! The statements of 42_register_ops.md. -/

namespace Sys2Proof.Proofs

open Sys2Proof.Machine Sys2Proof.Claims

/-- Settles O28: the adder writes C, Q and O by `setCQO`, and its overflow is that of the signed sum. -/
theorem adderWritesCarryAndOverflow : Obligations.AdderWritesCarryAndOverflow := by
  intro s a b cin
  rw [State.addFlags_eq_setCQO]
  exact ⟨addSum_eq_sum16 a b cin, flag_setCQO_c .., flag_setCQO_q .., flag_setCQO_o ..,
    fun _ notC notQ notO => flag_setCQO_of_ne _ _ _ notC notQ notO, fun _ => cur_setCQO ..,
    sumOverflows_iff a b cin⟩

/-- Settles O37: every operation but SWAP ends in one write of its destination field, RADD after its flags. -/
theorem registerOperations : Obligations.RegisterOperations := by
  intro s adc ad1 cm1 cld sr dr src dst cin done
  have combined (f : Word → Word → Word) : combineRegisters f cm1 cld sr dr s = done s (f dst src) :=
    congrArg _ (State.roFinish_eq rfl dr _)
  refine ⟨decode_registerOperation 0 cm1 cld sr dr, decode_registerOperation 1 cm1 cld sr dr,
    decode_registerOperation 2 cm1 cld sr dr, decode_registerOperation 3 cm1 cld sr dr, ?radd,
    exec_swap cm1 cld sr dr s, combined _, combined _, combined _, ?sum⟩
  case radd =>
    cases adc <;> cases ad1
    · exact decode_registerOperation 4 cm1 cld sr dr
    · exact decode_registerOperation 5 cm1 cld sr dr
    · exact decode_registerOperation 6 cm1 cld sr dr
    · exact decode_registerOperation 7 cm1 cld sr dr
  case sum =>
    show Host.Outcome.next ((s.addFlags dst src cin).roFinish dr (addSum dst src cin)) = _
    rw [State.addFlags_eq_setCQO, addSum_eq_sum16, State.roFinish_eq (cur_setCQO ..)]

/-- Settles O38: four loads of a register and four additions to one. -/
theorem argumentInstructions : Obligations.ArgumentInstructions := by
  intro s arg v p
  have load {r : Reg} (notP : r ≠ .p) :
      (Host.Outcome.next (s.setCur r v).next : Result) = .next ((s.setCur r v).jump p) :=
    congrArg _ (State.next_setCur rfl notP v)
  have sum {r : Reg} (notP : r ≠ .p) :
      (Host.Outcome.next (s.addTo r v false).next : Result) = .next (afterAdd s r v false) :=
    congrArg _ (State.addTo_next_eq_afterAdd s v false notP)
  exact ⟨decode_argument 0 arg, decode_argument 1 arg, decode_argument 2 arg, decode_argument 3 arg,
    decode_argument 4 arg, decode_argument 5 arg, decode_argument 6 arg, decode_argument 7 arg,
    load (by decide), load (by decide), load (by decide), load (by decide),
    sum (by decide), sum (by decide), sum (by decide), sum (by decide)⟩

/-- Settles O39: the operand bit is written in place, and only a write to P is a jump. -/
theorem bitSetAndSkip : Obligations.BitSetAndSkip := by
  intro s n dr bn bit k write go
  have skips (c : Bool) : (Host.Outcome.next (s.skipIf c) : Result) = go c :=
    congrArg _ (s.skipIf_eq_jump c)
  refine ⟨fun v => ?status, fun r v => congrArg (s.setCur r) (setBitTo_eq _ bn v), rfl, fun _ => rfl,
    decode_bit 0 n dr, decode_bit 1 n dr, decode_bit 2 n dr, decode_bit 3 n dr,
    decode_bit 4 n dr, decode_bit 5 n dr, decode_bit 6 n dr, decode_bit 7 n dr,
    writeBitAndEnd_eq .., writeBitAndEnd_eq .., writeBitAndEnd_eq .., writeBitAndEnd_eq ..,
    skips _, skips _, skips _, skips _⟩
  case status => rw [State.writeBit, setBitTo_eq]; simp only [Nat.lt_succ_iff]

/-- Settles O40: BSTC and BSTA write the operand bit and then K, the other six write K alone. -/
theorem bitAccumulatorInstructions : Obligations.BitAccumulatorInstructions := by
  intro s n dr bn bit k p
  exact ⟨decode_bit 8 n dr, decode_bit 9 n dr, decode_bit 10 n dr, decode_bit 11 n dr,
    decode_bit 12 n dr, decode_bit 13 n dr, decode_bit 14 n dr, decode_bit 15 n dr,
    writeBitThenK_eq .., writeBitThenK_eq .., writeK_eq .., writeK_eq .., writeK_eq .., writeK_eq ..,
    writeK_eq .., writeK_eq ..⟩

end Sys2Proof.Proofs
end

section
/-! The words of format SH (30_encoding.md R83, R86). -/

namespace Sys2Proof

/-- The shifts by the register `w[8:7]`. -/
def shiftInstruction (reg : BitVec 2) : ShiftType → Int → Instr :=
  ![.sht, .shd, .sha, .sad] reg.toFin

theorem decodeShift_eq (w : Word) :
    decodeShift w =
      shiftInstruction (field w 7 2) (shiftTypeOfBits (field w 9 2)) (field w 0 6).toInt := by
  unfold decodeShift
  obtain ⟨reg⟩ := field w 7 2
  fin_cases reg <;> rfl

theorem shiftTypeOfBits_bitsOfShiftType (type : ShiftType) :
    shiftTypeOfBits (bitsOfShiftType type) = type := by
  cases type <;> rfl

/-- The upper ten bits of a word of format SH, with the ignored bit 6 zero. -/
def shiftHigh (type reg : BitVec 2) : BitVec 10 := 0b11011#5 ++ type ++ reg ++ 0#1

theorem shiftHigh_eq_or : ∀ type reg : BitVec 2,
    shiftHigh type reg = (0b11011#5 ++ 0#2 ++ reg ++ 0#1) ||| (0#5 ++ (type ++ 0#3)) := by decide

theorem shiftHigh_fields : ∀ type reg : BitVec 2,
    (shiftHigh type reg).extractLsb' 5 5 = 0b11011#5 ∧ (shiftHigh type reg).extractLsb' 3 2 = type ∧
    (shiftHigh type reg).extractLsb' 1 2 = reg := by decide

/-- The type and the count, added to the opcode of a shift, fill their fields. -/
theorem shiftWord_eq_append (type reg : BitVec 2) (count : BitVec 6) :
    (0b11011#5 ++ 0#2 ++ reg ++ 0#7 : Word) ||| (type ++ 0#3 ++ count).zeroExtend 16 =
      shiftHigh type reg ++ count := by
  have fields : (type ++ 0#3 ++ count).zeroExtend 16 = 0#5 ++ (type ++ 0#3) ++ count := by
    have assoc := BitVec.append_assoc (x₁ := 0#5) (x₂ := type ++ 0#3) (x₃ := count)
    rw [BitVec.cast_eq] at assoc
    exact (zeroExtend_eq_append 5 (type ++ 0#3 ++ count)).trans assoc.symm
  have opcode : ∀ reg : BitVec 2,
      (0b11011#5 ++ 0#2 ++ reg ++ 0#7 : Word) = 0b11011#5 ++ 0#2 ++ reg ++ 0#1 ++ 0#6 := by decide
  rw [fields, opcode, BitVec.or_append, BitVec.zero_or, shiftHigh_eq_or]

theorem decode_shift (reg : BitVec 2) (type : ShiftType) (count : BitVec 6) :
    decode ((0b11011#5 ++ 0#2 ++ reg ++ 0#7 : Word) |||
        (bitsOfShiftType type ++ 0#3 ++ count).zeroExtend 16) =
      .ok (shiftInstruction reg type count.toInt) := by
  obtain ⟨highOpcode, highType, highReg⟩ := shiftHigh_fields (bitsOfShiftType type) reg
  rw [shiftWord_eq_append]
  generalize word : shiftHigh (bitsOfShiftType type) reg ++ count = w
  have high {lo : Nat} (above : 6 ≤ lo) (n : Nat) :
      field w lo n = (shiftHigh (bitsOfShiftType type) reg).extractLsb' (lo - 6) n :=
    word ▸ field_append_six _ count above n
  have opcode : field w 11 5 = 0b11011#5 := (high (by decide) 5).trans highOpcode
  have kind : field w 9 2 = bitsOfShiftType type := (high (by decide) 2).trans highType
  have row : field w 7 2 = reg := (high (by decide) 2).trans highReg
  have low : field w 0 6 = count := word ▸ BitVec.extractLsb'_append_eq_right
  have slot : decode w = .ok (decodeShift w) := by
    unfold decode
    rw [opcode]
    rfl
  rw [slot, decodeShift_eq, row, kind, low, shiftTypeOfBits_bitsOfShiftType]

end Sys2Proof
end

section
/-! The shift engine in closed form, and how a shift ends (43_shift.md R190 to R194). -/

namespace Sys2Proof.Machine

variable {w : Nat}

/-! ### Rotations bit by bit -/

/-- A rotation to the right reads its bits around the ring. -/
theorem getLsbD_rotateRight_eq_mod (v : BitVec w) (n : Nat) {i : Nat} (inside : i < w) :
    (v.rotateRight n).getLsbD i = v.getLsbD ((i + n) % w) := by
  have bound : n % w < w := Nat.mod_lt n (by omega)
  rw [BitVec.getLsbD_rotateRight, ← Nat.add_mod_mod]
  generalize n % w = r at bound
  by_cases low : i < w - r
  · rw [Nat.mod_eq_of_lt (by omega), Nat.add_comm]
    simp [low]
  · rw [Nat.mod_eq_sub_mod (by omega), Nat.mod_eq_of_lt (by omega)]
    simp [low, inside, show i - (w - r) = i + r - w by omega]

theorem rotateRight_add (v : BitVec w) (m n : Nat) :
    v.rotateRight (m + n) = (v.rotateRight m).rotateRight n := by
  apply BitVec.eq_of_getLsbD_eq
  intro i inside
  rw [getLsbD_rotateRight_eq_mod _ _ inside, getLsbD_rotateRight_eq_mod _ _ inside,
    getLsbD_rotateRight_eq_mod _ _ (Nat.mod_lt _ (by omega)), Nat.mod_add_mod, Nat.add_right_comm,
    ← Nat.add_assoc, Nat.add_right_comm]

/-- One place to the left is `w - 1` places to the right. -/
theorem rotateLeft_eq_rotateRight (v : BitVec w) (n : Nat) :
    v.rotateLeft n = v.rotateRight (n * (w - 1)) := by
  apply BitVec.eq_of_getLsbD_eq
  intro i inside
  have bound : n % w < w := Nat.mod_lt n (by omega)
  have back : i + n * (w - 1) ≡ i + (w - n % w) [MOD w] := by
    have turn : n * (w - 1) + n = n * w := by
      rw [← Nat.mul_succ, Nat.succ_eq_add_one, Nat.sub_add_cancel (by omega)]
    refine Nat.ModEq.add_left i (Nat.ModEq.add_right_cancel (Nat.mod_modEq n w).symm ?_)
    rw [turn, Nat.sub_add_cancel bound.le]
    exact (Nat.modEq_zero_iff_dvd.mpr (dvd_mul_left w n)).trans
      (Nat.modEq_zero_iff_dvd.mpr dvd_rfl).symm
  rw [getLsbD_rotateRight_eq_mod _ _ inside, BitVec.getLsbD_rotateLeft, back]
  generalize n % w = r at bound
  by_cases low : i < r
  · rw [Nat.mod_eq_of_lt (by omega), Nat.add_comm]
    simp [low]
  · rw [Nat.mod_eq_sub_mod (by omega), Nat.mod_eq_of_lt (by omega)]
    simp [low, inside, show i + (w - r) - w = i - r by omega]

theorem rotateLeft_succ (v : BitVec w) (n : Nat) :
    v.rotateLeft (n + 1) = (v.rotateLeft n).rotateLeft 1 := by
  simp only [rotateLeft_eq_rotateRight, Nat.succ_mul, one_mul, rotateRight_add]

theorem rotateRight_zero (v : BitVec w) : v.rotateRight 0 = v :=
  BitVec.eq_of_getLsbD_eq fun i inside => by
    rw [getLsbD_rotateRight_eq_mod _ _ inside, Nat.add_zero, Nat.mod_eq_of_lt inside]

theorem rotateLeft_zero (v : BitVec w) : v.rotateLeft 0 = v := by
  rw [rotateLeft_eq_rotateRight, zero_mul, rotateRight_zero]

theorem getLsbD_rotateRight_one (v : BitVec w) {i : Nat} (inside : i < w) :
    (v.rotateRight 1).getLsbD i = if i = w - 1 then v.getLsbD 0 else v.getLsbD (i + 1) := by
  rw [getLsbD_rotateRight_eq_mod _ _ inside]
  split
  case isTrue last => rw [show i + 1 = w by omega, Nat.mod_self]
  case isFalse => rw [Nat.mod_eq_of_lt (by omega)]

theorem getLsbD_rotateLeft_one (v : BitVec w) {i : Nat} (inside : i < w) :
    (v.rotateLeft 1).getLsbD i = if i = 0 then v.getLsbD (w - 1) else v.getLsbD (i - 1) := by
  rw [rotateLeft_eq_rotateRight, getLsbD_rotateRight_eq_mod _ _ inside, one_mul]
  split
  case isTrue first => rw [Nat.mod_eq_of_lt (by omega), first, zero_add]
  case isFalse => rw [Nat.mod_eq_sub_mod (by omega), Nat.mod_eq_of_lt (by omega),
    show i + (w - 1) - w = i - 1 by omega]

/-! ### One step of the engine, bit by bit -/

/-- The step to the left: the register moves up, with the input at bit 0. -/
theorem getLsbD_setBitTo_shiftLeft (v : BitVec w) (input : Bool) {i : Nat} (inside : i < w) :
    (setBitTo (v <<< 1) 0 input).getLsbD i = if i = 0 then input else v.getLsbD (i - 1) := by
  rw [getLsbD_setBitTo _ _ _ _ inside]
  by_cases first : i = 0
  · rw [if_pos first, if_pos first]
  · rw [if_neg first, if_neg first, BitVec.getLsbD_shiftLeft]
    simp [inside, first]

/-- The step to the right: the register moves down, with the input at its top bit. -/
theorem getLsbD_setBitTo_shiftRight (v : BitVec w) (input : Bool) {i : Nat} (inside : i < w) :
    (setBitTo (v >>> 1) (w - 1) input).getLsbD i =
      if i = w - 1 then input else v.getLsbD (i + 1) := by
  rw [getLsbD_setBitTo _ _ _ _ inside, BitVec.getLsbD_ushiftRight, Nat.add_comm 1]

theorem shiftLeftStep_plain (v : BitVec w) (m : Bool) :
    shiftLeftStep .plain v m = (v <<< 1, v.getLsbD (w - 1)) := by
  refine Prod.ext (BitVec.eq_of_getLsbD_eq fun i inside => ?_) rfl
  refine (getLsbD_setBitTo_shiftLeft v false inside).trans ?_
  rw [BitVec.getLsbD_shiftLeft]
  by_cases first : i = 0 <;> simp [first, inside]

theorem shiftLeftStep_rot (v : BitVec w) (m : Bool) :
    shiftLeftStep .rot v m = (v.rotateLeft 1, v.getLsbD (w - 1)) :=
  Prod.ext (BitVec.eq_of_getLsbD_eq fun _ inside =>
    (getLsbD_setBitTo_shiftLeft v _ inside).trans (getLsbD_rotateLeft_one v inside).symm) rfl

theorem shiftRightStep_plain (v : BitVec w) (m : Bool) :
    shiftRightStep .plain v m = (v.sshiftRight 1, v.getLsbD 0) := by
  refine Prod.ext (BitVec.eq_of_getLsbD_eq fun i inside => ?_) rfl
  refine (getLsbD_setBitTo_shiftRight v _ inside).trans ?_
  rw [BitVec.getLsbD_sshiftRight, BitVec.msb_eq_getLsbD_last]
  by_cases last : i = w - 1
  · simp [last, show ¬ 1 + (w - 1) < w by omega, show ¬ w ≤ w - 1 by omega]
  · simp [last, show i + 1 < w by omega, show ¬ w ≤ i by omega, Nat.add_comm 1]

theorem shiftRightStep_zin (v : BitVec w) (m : Bool) :
    shiftRightStep .zin v m = (v >>> 1, v.getLsbD 0) := by
  refine Prod.ext (BitVec.eq_of_getLsbD_eq fun i inside => ?_) rfl
  refine (getLsbD_setBitTo_shiftRight v false inside).trans ?_
  rw [BitVec.getLsbD_ushiftRight, Nat.add_comm 1]
  split
  case isTrue last => exact (BitVec.getLsbD_of_ge _ _ (by omega)).symm
  case isFalse => rfl

theorem shiftRightStep_rot (v : BitVec w) (m : Bool) :
    shiftRightStep .rot v m = (v.rotateRight 1, v.getLsbD 0) :=
  Prod.ext (BitVec.eq_of_getLsbD_eq fun _ inside =>
    (getLsbD_setBitTo_shiftRight v _ inside).trans (getLsbD_rotateRight_one v inside).symm) rfl

/-! ### The ring of M and the register -/

/-- The ring of `w + 1` bits of a LIN shift: M above the register. -/
def linkRing (m : Bool) (v : BitVec w) : BitVec (1 + w) := BitVec.ofBool m ++ v

theorem getLsbD_linkRing (m : Bool) (v : BitVec w) {i : Nat} (inside : i < 1 + w) :
    (linkRing m v).getLsbD i = if i < w then v.getLsbD i else m := by
  rw [linkRing, BitVec.getLsbD_append, BitVec.getLsbD_ofBool]
  split
  case isTrue => rfl
  case isFalse => simp [show i - w = 0 by omega]

/-- A LIN step to the left rotates the ring. -/
theorem linkRing_shiftLeftStep (wide : 0 < w) (v : BitVec w) (m : Bool) :
    linkRing (shiftLeftStep .lin v m).2 (shiftLeftStep .lin v m).1 = (linkRing m v).rotateLeft 1 := by
  apply BitVec.eq_of_getLsbD_eq
  intro i inside
  rw [getLsbD_rotateLeft_one _ inside, getLsbD_linkRing _ _ inside]
  simp only [shiftLeftStep]
  rcases Nat.lt_or_ge i w with low | top
  · rw [if_pos low, getLsbD_setBitTo_shiftLeft v m low, getLsbD_linkRing _ _ (by omega),
      getLsbD_linkRing _ _ (by omega), if_neg (show ¬ 1 + w - 1 < w by omega),
      if_pos (show i - 1 < w by omega)]
  · rw [if_neg (by omega), if_neg (by omega), getLsbD_linkRing _ _ (by omega), if_pos (by omega),
      show i - 1 = w - 1 by omega]

/-- A LIN step to the right rotates the ring. -/
theorem linkRing_shiftRightStep (wide : 0 < w) (v : BitVec w) (m : Bool) :
    linkRing (shiftRightStep .lin v m).2 (shiftRightStep .lin v m).1 =
      (linkRing m v).rotateRight 1 := by
  apply BitVec.eq_of_getLsbD_eq
  intro i inside
  rw [getLsbD_rotateRight_one _ inside, getLsbD_linkRing _ _ inside]
  simp only [shiftRightStep]
  rcases Nat.lt_or_ge i w with low | top
  · rw [if_pos low, getLsbD_setBitTo_shiftRight v m low, if_neg (show ¬ i = 1 + w - 1 by omega),
      getLsbD_linkRing _ _ (by omega)]
    by_cases last : i = w - 1
    · rw [if_pos last, if_neg (by omega)]
    · rw [if_neg last, if_pos (by omega)]
  · rw [if_neg (by omega), if_pos (by omega), getLsbD_linkRing _ _ (by omega), if_pos wide]

/-! ### The steps repeated -/

/-- Steps that do not read M: it holds the bit that the last step shifted out. -/
theorem shiftSteps_of_unlinked {step : BitVec w → Bool → BitVec w × Bool} {move : BitVec w → BitVec w}
    {out : BitVec w → Bool} (unlinked : ∀ v m, step v m = (move v, out v)) (n : Nat) (v : BitVec w)
    (m : Bool) : shiftSteps step (n + 1) v m = (move^[n + 1] v, out (move^[n] v)) := by
  induction n generalizing v m with
  | zero => exact unlinked v m
  | succ n ih => rw [shiftSteps, ih, unlinked]; rfl

/-- Steps that turn the ring of M and the register. -/
theorem linkRing_shiftSteps {step : BitVec w → Bool → BitVec w × Bool}
    {turn : BitVec (1 + w) → BitVec (1 + w)}
    (turns : ∀ v m, linkRing (step v m).2 (step v m).1 = turn (linkRing m v)) (n : Nat) (v : BitVec w)
    (m : Bool) :
    linkRing (shiftSteps step n v m).2 (shiftSteps step n v m).1 = turn^[n] (linkRing m v) := by
  induction n generalizing v m with
  | zero => rfl
  | succ n ih => rw [shiftSteps, ih, turns]; rfl

/-! ### Shifts and rotations by 1, repeated -/

section

variable (v : BitVec w) (n : Nat)

/-- A shift or rotation by `n` is `n` of them by 1. -/
theorem iterate_by_one {op : BitVec w → Nat → BitVec w} (zero : ∀ v, op v 0 = v)
    (succ : ∀ v n, op v (n + 1) = op (op v n) 1) : (op · 1)^[n] v = op v n := by
  induction n with
  | zero => exact (zero v).symm
  | succ n ih => rw [Function.iterate_succ_apply', ih, ← succ]

theorem iterate_shiftLeft : (fun v : BitVec w => v <<< 1)^[n] v = v <<< n :=
  iterate_by_one (op := (· <<< ·)) v n BitVec.shiftLeft_zero fun v n => v.shiftLeft_add n 1

theorem iterate_shiftRight : (fun v : BitVec w => v >>> 1)^[n] v = v >>> n :=
  iterate_by_one (op := (· >>> ·)) v n (fun v => v.ushiftRight_zero) fun v n => v.shiftRight_add n 1

theorem iterate_sshiftRight : (·.sshiftRight 1)^[n] v = v.sshiftRight n :=
  iterate_by_one v n (fun v => v.sshiftRight_zero) fun _ _ => BitVec.sshiftRight_add

theorem iterate_rotateLeft : (·.rotateLeft 1)^[n] v = v.rotateLeft n :=
  iterate_by_one v n rotateLeft_zero rotateLeft_succ

theorem iterate_rotateRight : (·.rotateRight 1)^[n] v = v.rotateRight n :=
  iterate_by_one v n rotateRight_zero fun v n => rotateRight_add v n 1

end

/-! ### The engine in closed form, to the left and to the right -/

section

variable (v : BitVec w) (m : Bool) (n : Nat)

theorem shiftEngine_left (type : ShiftType) :
    shiftEngine type (n : Int) v m = shiftSteps (shiftLeftStep type) n v m := rfl

theorem shiftEngine_right (type : ShiftType) :
    shiftEngine type (-(n : Int)) v m = shiftSteps (shiftRightStep type) n v m := by
  cases n <;> rfl

theorem shiftEngine_left_plain :
    shiftEngine .plain ((n + 1 : Nat) : Int) v m = (v <<< (n + 1), (v <<< n).getLsbD (w - 1)) := by
  rw [shiftEngine_left, shiftSteps_of_unlinked shiftLeftStep_plain, iterate_shiftLeft,
    iterate_shiftLeft]

theorem shiftEngine_left_zin :
    shiftEngine .zin ((n + 1 : Nat) : Int) v m = (v <<< (n + 1), (v <<< n).getLsbD (w - 1)) :=
  shiftEngine_left_plain v m n

/-- The bit that the last rotation step moves out at the top stands at bit 0. -/
theorem shiftEngine_left_rot (wide : 0 < w) :
    shiftEngine .rot ((n + 1 : Nat) : Int) v m =
      (v.rotateLeft (n + 1), (v.rotateLeft (n + 1)).getLsbD 0) := by
  have link : (v.rotateLeft (n + 1)).getLsbD 0 = (v.rotateLeft n).getLsbD (w - 1) := by
    rw [rotateLeft_succ, getLsbD_rotateLeft_one _ wide, if_pos rfl]
  rw [shiftEngine_left, shiftSteps_of_unlinked shiftLeftStep_rot, iterate_rotateLeft,
    iterate_rotateLeft, link]

theorem shiftEngine_right_plain :
    shiftEngine .plain (-((n + 1 : Nat) : Int)) v m =
      (v.sshiftRight (n + 1), (v.sshiftRight n).getLsbD 0) := by
  rw [shiftEngine_right, shiftSteps_of_unlinked shiftRightStep_plain, iterate_sshiftRight,
    iterate_sshiftRight]

theorem shiftEngine_right_zin :
    shiftEngine .zin (-((n + 1 : Nat) : Int)) v m = (v >>> (n + 1), (v >>> n).getLsbD 0) := by
  rw [shiftEngine_right, shiftSteps_of_unlinked shiftRightStep_zin, iterate_shiftRight,
    iterate_shiftRight]

/-- The bit that the last rotation step moves out at the bottom stands at the top. -/
theorem shiftEngine_right_rot (wide : 0 < w) :
    shiftEngine .rot (-((n + 1 : Nat) : Int)) v m =
      (v.rotateRight (n + 1), (v.rotateRight (n + 1)).getLsbD (w - 1)) := by
  have link : (v.rotateRight (n + 1)).getLsbD (w - 1) = (v.rotateRight n).getLsbD 0 := by
    rw [rotateRight_add, getLsbD_rotateRight_one _ (by omega), if_pos rfl]
  rw [shiftEngine_right, shiftSteps_of_unlinked shiftRightStep_rot, iterate_rotateRight,
    iterate_rotateRight, link]

theorem linkRing_shiftEngine_left (wide : 0 < w) :
    linkRing (shiftEngine .lin (n : Int) v m).2 (shiftEngine .lin (n : Int) v m).1 =
      (linkRing m v).rotateLeft n :=
  (linkRing_shiftSteps (linkRing_shiftLeftStep wide) n v m).trans (iterate_rotateLeft _ n)

theorem linkRing_shiftEngine_right (wide : 0 < w) :
    linkRing (shiftEngine .lin (-(n : Int)) v m).2 (shiftEngine .lin (-(n : Int)) v m).1 =
      (linkRing m v).rotateRight n := by
  rw [shiftEngine_right, ← iterate_rotateRight]
  exact linkRing_shiftSteps (linkRing_shiftRightStep wide) n v m

end

/-! ### How a shift ends (R191 to R194) -/

/-- A shift goes on after writing its registers, none of them P, and M. -/
theorem State.setFlag_next_eq_jump {s t : State} (p : t.cur .p = s.cur .p) (g : Flag) (v : Bool) :
    (t.setFlag g v).next = (t.setFlag g v).jump (s.cur .p + 1) :=
  State.next_eq_jump ((State.cur_setFlag ..).trans p)

theorem shiftRegister_eq {r : Reg} (notP : r ≠ .p) (type : ShiftType) (n : Int) (s : State) :
    shiftRegister r type n s =
      .next (((s.setCur r (shiftEngine type n (s.cur r) (s.flag .m)).1).setFlag .m
        (shiftEngine type n (s.cur r) (s.flag .m)).2).jump (s.cur .p + 1)) :=
  congrArg _ (State.setFlag_next_eq_jump (by rw [State.cur_setCur, if_neg notP.symm]) .m _)

end Sys2Proof.Machine
end

section
/-! The statements of 43_shift.md. -/

namespace Sys2Proof.Proofs

open Sys2Proof.Machine

/-- Settles O41: the format gives back the register, the type and the count; a shift then writes its
register, which is not P, and M. -/
theorem shiftInstructions : Obligations.ShiftInstructions := by
  intro s type count n word done engine double
  refine ⟨decode_shift 0 type count, decode_shift 1 type count, decode_shift 2 type count,
    decode_shift 3 type count, shiftRegister_eq (by decide) type n s,
    shiftRegister_eq (by decide) type n s, shiftRegister_eq (by decide) type n s, ?sad⟩
  case sad => exact congrArg _ (State.setFlag_next_eq_jump (by simp) .m _)

/-- Settles O42: at least one step is made, after which M is the last bit to leave, and a LIN step turns
the ring of M and the register. -/
theorem shiftEngineClosedForms : Obligations.ShiftEngineClosedForms := by
  intro w width v m n positive _ left right
  have wide : 0 < w := by omega
  obtain ⟨k, rfl⟩ := Nat.exists_eq_succ_of_ne_zero positive.ne'
  have leftPlain : left .plain = _ := shiftEngine_left_plain v m k
  have leftZin : left .zin = _ := shiftEngine_left_zin v m k
  have leftRot : left .rot = _ := shiftEngine_left_rot v m k wide
  have rightPlain : right .plain = _ := shiftEngine_right_plain v m k
  have rightZin : right .zin = _ := shiftEngine_right_zin v m k
  have rightRot : right .rot = _ := shiftEngine_right_rot v m k wide
  rw [leftPlain, leftZin, leftRot, rightPlain, rightZin, rightRot]
  exact ⟨fun _ => rfl, rfl, rfl, rfl, rfl, rfl, rfl, linkRing_shiftEngine_left v m (k + 1) wide,
    linkRing_shiftEngine_right v m (k + 1) wide, rfl, rfl, rfl, rfl, rfl, rfl⟩

end Sys2Proof.Proofs
end

section
/-! The words of format XR whose upper ten bits are a row of their own (30_encoding.md R83, R87). -/

namespace Sys2Proof

open Sys2Proof.Claims

/-- In the extended slot, bits 10:6 that pick one row give the instruction of that row. For a concrete row
the tests of the decoder evaluate to it. -/
theorem decode_extendedRow (row : BitVec 5) (i : Word → Instr) (low : BitVec 6)
    (picked : ∀ w, field w 6 2 = row.extractLsb' 0 2 → field w 6 5 = row →
        decodeExtended w = .ok (i w) := by
      intro w format number
      unfold decodeExtended
      rw [format, number]
      rfl) :
    decode (0b11000#5 ++ row ++ low) = .ok (i (0b11000#5 ++ row ++ low)) := by
  have slot : field (0b11000#5 ++ row ++ low) 11 5 = 0b11000#5 :=
    (field_append_six _ low (by decide) 5).trans BitVec.extractLsb'_append_eq_left
  have number : field (0b11000#5 ++ row ++ low) 6 5 = row :=
    (field_append_six _ low (by decide) 5).trans BitVec.extractLsb'_append_eq_right
  have format : field (0b11000#5 ++ row ++ low) 6 2 = row.extractLsb' 0 2 :=
    (field_append_six _ low (by decide) 2).trans
      (BitVec.extractLsb'_append_eq_of_add_le (by decide))
  exact (decode_extended slot).trans (picked _ format number)

theorem decode_rmpy (sr dr : RegField) : decode (regsWord 0o141200 sr dr) = .ok (.rmpy sr dr) := by
  have word := regsWord_eq_append 0b1100001010 sr dr
  have decoded := decode_extendedRow 0b01010 (fun w => .rmpy (srField w) (drField w))
    (codeOfReg sr ++ codeOfReg dr)
  refine (congrArg decode word).trans (decoded.trans ?_)
  rw [srField_append, drField_append]

/-- RDIV ignores its destination field (R92). -/
theorem decode_rdiv (sr : RegField) (ignored : BitVec 3) :
    decode (regsWord 0o141600 sr none ||| ignored.zeroExtend 16) = .ok (.rdiv sr) := by
  have word := regsWord_none_or_eq_append 0b1100001110 sr ignored
  have decoded := decode_extendedRow 0b01110 (fun w => .rdiv (srField w)) (codeOfReg sr ++ ignored)
  refine (congrArg decode word).trans (decoded.trans ?_)
  rw [srField_append]

/-- MIX3, LBYT and SBYT ignore their low six bits (R92). -/
theorem decode_mix3 (ignored : BitVec 6) : decode (0o143200 ||| ignored.zeroExtend 16) = .ok .mix3 :=
  (congrArg decode (append_zero_or_zeroExtend 0b1100011010#10 ignored)).trans
    (decode_extendedRow 0b11010 (fun _ => .mix3) ignored)

theorem decode_lbyt (ignored : BitVec 6) : decode (0o142200 ||| ignored.zeroExtend 16) = .ok .lbyt :=
  (congrArg decode (append_zero_or_zeroExtend 0b1100010010#10 ignored)).trans
    (decode_extendedRow 0b10010 (fun _ => .lbyt) ignored)

theorem decode_sbyt (ignored : BitVec 6) : decode (0o142600 ||| ignored.zeroExtend 16) = .ok .sbyt :=
  (congrArg decode (append_zero_or_zeroExtend 0b1100010110#10 ignored)).trans
    (decode_extendedRow 0b10110 (fun _ => .sbyt) ignored)

end Sys2Proof
end

section
/-! The overflow flags of the multiplies, truncating division, and how the instructions of
44_muldiv_byte.md end. -/

namespace Sys2Proof.Machine

variable {s u : State}

/-! ### Overflow (R200, R201) -/

/-- A multiply writes Q, and sets O where it overflows. -/
theorem State.overflowFlags_eq (s : State) (overflow : Bool) :
    s.overflowFlags overflow = (s.setFlag .q overflow).setFlag .o (s.flag .o || overflow) := by
  simp only [State.overflowFlags, Sys2Proof.Machine.overflowFlags, State.setFlag, State.flag,
    State.setCurFlags_setCurFlags, State.curFlags_setCurFlags]

theorem State.setCurFlags_curFlags (s : State) : s.setCurFlags s.curFlags = s := by
  have banks : s.banks.set s.pil.toNat (s.bank s.pil) s.pil.isLt = s.banks := Vector.set_getElem_self _
  exact congrArg (fun banks => { s with banks := banks }) banks

/-- A flag written with the value it has. -/
theorem State.setFlag_flag (s : State) (g : Flag) : s.setFlag g (s.flag g) = s := by
  have same : withFlag s.curFlags g (s.flag g) = s.curFlags := by
    apply BitVec.eq_of_getLsbD_eq
    intro i inside
    rw [withFlag, getLsbD_setBitTo _ _ _ _ inside]
    split
    next isFlag => rw [isFlag]; rfl
    next => rfl
  rw [State.setFlag, same, State.setCurFlags_curFlags]

/-- Without overflow Q is cleared and O kept. -/
theorem State.overflowFlags_false (s : State) : s.overflowFlags false = s.setFlag .q false := by
  have keptO : (s.flag .o || false) = (s.setFlag .q false).flag .o := by simp
  rw [State.overflowFlags_eq, keptO, State.setFlag_flag]

/-- The product of two signed words is a signed 32-bit number. -/
theorem rmpyOverflow_mul (v w : Word) : rmpyOverflow (v.toInt * w.toInt) = false := by
  have upper : v.toInt * w.toInt ≤ 2 ^ 30 := BitVec.toInt_mul_toInt_le
  have lower : -2 ^ 30 ≤ v.toInt * w.toInt := BitVec.le_toInt_mul_toInt
  rw [rmpyOverflow, Bool.or_eq_false_iff, decide_eq_false_iff_not, decide_eq_false_iff_not]
  omega

/-! ### Truncating division (R202) -/

/-- The remainder of truncating division has the sign of the dividend. -/
theorem tmod_neg_iff {n d : Int} (rest : n.tmod d ≠ 0) : n.tmod d < 0 ↔ n < 0 := by
  have notMultiple : ¬ d ∣ n := fun divides => rest (Int.tmod_eq_zero_of_dvd divides)
  rw [← Int.sign_eq_neg_one_iff_neg, Int.sign_tmod, if_neg notMultiple, Int.sign_eq_neg_one_iff_neg]

theorem natAbs_tmod_lt (n : Int) {d : Int} (divisor : d ≠ 0) : (n.tmod d).natAbs < d.natAbs := by
  rw [Int.natAbs_tmod]
  exact Nat.mod_lt _ (Int.natAbs_pos.mpr divisor)

/-! ### Results in A and D -/

/-- `next` after A and D were written. -/
theorem State.next_setCur_a_d (p : u.cur .p = s.cur .p) (a d : Word) :
    ((u.setCur .a a).setCur .d d).next = ((u.setCur .a a).setCur .d d).jump (s.cur .p + 1) :=
  State.next_setCur (by rw [State.cur_setCur, if_neg (by decide), p]) (by decide) d

/-- RMPY never overflows (R201). -/
theorem exec_rmpy (sr dr : RegField) (s : State) (product : BitVec 32)
    (h : product = BitVec.ofInt 32 ((s.fieldValue sr).toInt * (s.fieldValue dr).toInt)) :
    exec (.rmpy sr dr) s =
      .next ((((s.setFlag .q false).setCur .a (product.extractLsb' 16 16)).setCur .d
        (product.extractLsb' 0 16)).jump (s.cur .p + 1)) := by
  show execRmpy sr dr s = _
  rw [execRmpy, rmpyOverflow_mul, State.overflowFlags_false, ← h,
    State.next_setCur_a_d (State.cur_setFlag ..)]

theorem exec_rdiv_of_ne_zero {sr : RegField} (divisor : (s.fieldValue sr).toInt ≠ 0) :
    exec (.rdiv sr) s =
      .next (((s.setCur .a
          (BitVec.ofInt 16 ((s.cur .a ++ s.cur .d).toInt.tdiv (s.fieldValue sr).toInt))).setCur .d
          (BitVec.ofInt 16 ((s.cur .a ++ s.cur .d).toInt.tmod (s.fieldValue sr).toInt))).jump
        (s.cur .p + 1)) :=
  (if_neg divisor).trans (congrArg _ (State.next_setCur_a_d rfl _ _))

/-- Whatever `DivZero` answers, it is what the instruction does (R203; log 5). -/
theorem exec_rdiv_of_zero {sr : RegField} (divisor : (s.fieldValue sr).toInt = 0) :
    exec (.rdiv sr) s =
      match Config.divZero (s.cur .a) (s.cur .d) with
      | .refuse => .refused .divZero
      | .result q r => .next (((s.setCur .a q).setCur .d r).jump (s.cur .p + 1)) := by
  refine (if_pos divisor).trans ?_
  cases Config.divZero (s.cur .a) (s.cur .d) with
  | refuse => rfl
  | result q r => exact congrArg _ (State.next_setCur_a_d rfl q r)

/-! ### TSET (R210) -/

/-- TSET after T is loaded. -/
theorem exec_tset_of_read {v : Word} (read : s.memRead (s.cur .x) true = .ok v u) :
    exec .tset s =
      ((u.setCur .t v).memWrite (s.cur .x) true 0o177777).andThen fun _ t => .next t.next := by
  refine (Access.andThen_of_ok read _).trans ?_
  rw [(State.memRead_ok read).cur]

end Sys2Proof.Machine
end

section
/-! The statements of 44_muldiv_byte.md. -/

namespace Sys2Proof.Proofs

open Sys2Proof.Machine

/-- Settles O31: the operand read leaves the registers and flags, and a product of two words always fits
in 32 bits. -/
theorem multiplyInstructions : Obligations.MultiplyInstructions := by
  intro s s₁ t mode disp ea m apt sr dr
  refine ⟨decode_mrWord (op := 0b10100) (fun _ => rfl) mode disp, decode_rmpy sr dr,
    fun found read => ?mpy, exec_rmpy sr dr s⟩
  case mpy =>
    have registers := State.cur_of_read found read
    have flags : t.flag .o = s.flag .o := congrArg (flagOf · .o)
      ((State.memRead_ok read).curFlags.trans (State.effectiveAddress_ok found).curFlags)
    have sameP (overflow : Bool) : (t.overflowFlags overflow).cur .p = s.cur .p :=
      (State.cur_setCurFlags ..).trans (registers .p)
    refine (State.readOperand_andThen found read _).trans (congrArg _ ?_)
    rw [registers, State.next_setCur (sameP _) (by decide), State.overflowFlags_eq, flags]
    rfl

/-- Settles O32: the quotient is `Int.tdiv` and the remainder `Int.tmod`, which truncate toward zero. -/
theorem divideTruncates : Obligations.DivideTruncates := by
  intro s sr ignored n d
  refine ⟨decode_rdiv sr ignored, fun divisor => ⟨n.tdiv d, n.tmod d, ?division, ?smaller, ?sign, ?result⟩,
    exec_rdiv_of_zero⟩
  case division => exact (Int.tdiv_mul_add_tmod n d).symm
  case smaller => exact natAbs_tmod_lt n divisor
  case sign => exact tmod_neg_iff
  case result => exact exec_rdiv_of_ne_zero divisor

/-- Settles O33: an access leaves the registers, so each instruction ends after its last one as it would
with no access made. -/
theorem byteAndSetInstructions : Obligations.ByteAndSetInstructions := by
  intro s s₁ t m ignored index addr sel
  refine ⟨decode_mix3 ignored, decode_lbyt ignored, decode_sbyt ignored, by decide, by decide, ?mix3,
    fun read => ?lbyt, fun fault => Access.andThen_of_abandoned fault _, fun written => ?sbyt,
    fun fault => Access.andThen_of_abandoned fault _, fun read => ⟨?rdus, fun written => ?tset,
      fun fault => ⟨?tsetFault, ?loaded⟩⟩,
    fun fault => ⟨Access.andThen_of_abandoned fault _, Access.andThen_of_abandoned fault _⟩⟩
  case mix3 => exact congrArg _ (State.next_setCur rfl (by decide) _)
  case lbyt =>
    have registers := (State.memRead_ok read).cur
    refine (Access.andThen_of_ok read _).trans (congrArg _ ?_)
    rw [registers, State.next_setCur (registers .p) (by decide)]
  case sbyt =>
    exact (Access.andThen_of_ok written _).trans
      (congrArg _ (State.next_eq_jump ((State.memWriteByte_ok written).cur .p)))
  case rdus =>
    exact (Access.andThen_of_ok read _).trans
      (congrArg _ (State.next_setCur ((State.memRead_ok read).cur .p) (by decide) _))
  case tset =>
    have sameP : t.cur .p = s.cur .p := by
      rw [(State.memWrite_ok written).cur, State.cur_setCur, if_neg (by decide),
        (State.memRead_ok read).cur]
    rw [exec_tset_of_read read, Access.andThen_of_ok written, State.next_eq_jump sameP]
  case tsetFault => rw [exec_tset_of_read read, Access.andThen_of_abandoned fault]
  case loaded => rw [(State.memWrite_abandoned fault).cur, State.cur_setCur, if_pos rfl]

end Sys2Proof.Proofs
end

section
/-! The words of format M8 of the system slot (30_encoding.md R83, R88). -/

namespace Sys2Proof

open Sys2Proof.Claims

/-- The decoder gives back the byte of a word in a row of R88 that its function `w[10:8]` alone picks. -/
theorem decode_systemRow {function : BitVec 3} {i : BitVec 8 → Instr}
    (row : ∀ w, field w 8 3 = function → decodeSystem w = .ok (i (lowByte w))) (n : BitVec 8) :
    decode (lowWord (0b11010#5 ++ function ++ 0#8) n) = .ok (i n) := by
  have opcode : field (0b11010#5 ++ function ++ n) 11 5 = 0b11010#5 :=
    (BitVec.extractLsb'_append_eq_of_le (by decide)).trans BitVec.extractLsb'_append_eq_left
  have picked : field (0b11010#5 ++ function ++ n) 8 3 = function :=
    (BitVec.extractLsb'_append_eq_of_le (by decide)).trans BitVec.extractLsb'_append_eq_right
  have byte : lowByte (0b11010#5 ++ function ++ n) = n := BitVec.extractLsb'_append_eq_right
  have slot : decode (0b11010#5 ++ function ++ n) = decodeSystem (0b11010#5 ++ function ++ n) := by
    unfold decode
    rw [opcode]
    rfl
  rw [lowWord_eq_append, slot, row _ picked, byte]

theorem decode_nlz (scale : BitVec 8) : decode (lowWord 0o151400 scale) = .ok (.nlz scale.toInt) :=
  decode_systemRow (function := 0b011) (i := fun n => .nlz n.toInt)
    (fun w picked => by unfold decodeSystem; rw [picked]; rfl) scale

theorem decode_dnz (scale : BitVec 8) : decode (lowWord 0o152000 scale) = .ok (.dnz scale.toInt) :=
  decode_systemRow (function := 0b100) (i := fun n => .dnz n.toInt)
    (fun w picked => by unfold decodeSystem; rw [picked]; rfl) scale

end Sys2Proof
end

section
/-! Scaling to the top of a range, `normalize` and `range` (45_float.md R225, R226). -/

namespace Sys2Proof.Machine

open Sys2Proof.Claims

/-- A positive number below `2 * half` doubles into the upper half of the range. -/
theorem exists_scale {n half : Nat} (positive : 0 < n) (below : n < 2 * half) :
    ∃ k, half ≤ n * 2 ^ k ∧ n * 2 ^ k < 2 * half := by
  have reached : ∃ k, half ≤ n * 2 ^ k :=
    ⟨half, half.lt_two_pow_self.le.trans (Nat.le_mul_of_pos_left _ positive)⟩
  refine ⟨Nat.find reached, Nat.find_spec reached, ?_⟩
  cases least : Nat.find reached with
  | zero => rwa [pow_zero, mul_one]
  | succ k =>
    have short : ¬ half ≤ n * 2 ^ k := Nat.find_min reached (by omega)
    rw [pow_succ, ← mul_assoc]
    omega

/-- A positive number that is scaled below `2^w` is scaled by fewer than `w` doublings. -/
theorem scale_lt {n k w : Nat} (positive : 0 < n) (below : n * 2 ^ k < 2 ^ w) : k < w :=
  (Nat.pow_lt_pow_iff_right Nat.one_lt_two).mp ((Nat.le_mul_of_pos_left _ positive).trans_lt below)

theorem toNat_zeroExtend {v w : Nat} (m : BitVec v) (wide : v ≤ w) : (m.zeroExtend w).toNat = m.toNat :=
  BitVec.toNat_setWidth_of_le wide

theorem floatRange_eq_rangeResult (sign : Bool) (e : Int) (m : BitVec 32) :
    floatRange sign e m = rangeResult sign e m.toNat := by
  rw [rangeResult, BitVec.ofNat_toNat, BitVec.setWidth_eq]
  rfl

/-- An exponent in the range of the field is kept (R226). -/
theorem rangeResult_of_inRange {sign : Bool} {e : Int} {m : Nat} (low : 0 ≤ e) (high : e ≤ 32767) :
    rangeResult sign e m = (⟨sign, BitVec.ofInt 15 e, BitVec.ofNat 32 m⟩, .exact) := by
  rw [rangeResult, if_neg (by omega), if_neg (by omega)]

theorem normalize_normalizesTo (sign : Bool) (e : Int) (m : BitVec 32) :
    normalizesTo sign e m.toNat (normalize sign e m) := by
  refine ⟨fun zero => if_pos (BitVec.eq_of_toNat_eq zero), fun k low high => ?_⟩
  have positive : 0 < m.toNat := Nat.pos_of_ne_zero fun zero => by simp [zero] at low
  have nonzero : m ≠ 0 := fun zero => by simp [zero] at positive
  rw [normalize, if_neg nonzero,
    alignTop_eq k 31 e m (Nat.le_of_lt_succ (scale_lt positive high)) low high, floatRange_eq_rangeResult,
    BitVec.toNat_ofNat, Nat.mod_eq_of_lt high]

theorem normalized_iff (f : Flt) : normalized f ↔ 2 ^ 31 ≤ f.man.toNat := getLsbD_top f.man

/-- A result that is normalized already is kept as it is. -/
theorem normalizesTo_of_normalized {f : Flt} {r : Flt × FloatReport} (top : normalized f)
    (result : normalizesTo f.sign f.exp.toNat f.man.toNat r) : r = (f, .exact) := by
  have low := (normalized_iff f).mp top
  have range := f.exp.isLt
  rw [result.2 0 (by omega) (by have := f.man.isLt; omega), rangeResult_of_inRange (by omega) (by omega)]
  simp

end Sys2Proof.Machine
end

section
/-! Float addition: how the smaller operand is aligned, and what the sum and the difference are
(45_float.md R224). -/

namespace Sys2Proof.Machine

open Sys2Proof.Claims

variable {a b big small : Flt}

/-! ### The alignment -/

/-- The unit that a 1 lost by the alignment leaves in bit 0. -/
def lostUnit (small : Flt) (delta : Nat) : Nat := if small.man.toNat % 2 ^ delta = 0 then 0 else 1

/-- The mantissas added after the alignment, 33 bits. -/
def alignedSum (big small : Flt) : Nat :=
  let delta := big.exp.toNat - small.exp.toNat
  (big.man.toNat + small.man.toNat / 2 ^ delta) ||| lostUnit small delta

/-- The mantissas subtracted after the alignment, modulo `2^32` (log 12). -/
def alignedDifference (big small : Flt) : Nat :=
  let delta := big.exp.toNat - small.exp.toNat
  ((2 ^ 32 + big.man.toNat - small.man.toNat / 2 ^ delta) % 2 ^ 32) ||| lostUnit small delta

/-- Every bit of a mantissa leaves at a distance of 32 or more. -/
theorem man_lt_two_pow (f : Flt) {delta : Nat} (far : 32 ≤ delta) : f.man.toNat < 2 ^ delta :=
  f.man.isLt.trans_le (Nat.pow_le_pow_right two_pos far)

theorem toNat_alignedMantissa (small : Flt) (delta : Nat) :
    (alignedMantissa small delta).toNat = small.man.toNat / 2 ^ delta := by
  rw [alignedMantissa]
  split
  next far => exact (Nat.div_eq_of_lt (man_lt_two_pow small far)).symm
  next => rw [BitVec.toNat_ushiftRight, Nat.shiftRight_eq_div_pow]

theorem stickyBit_eq (nonzero : small.man ≠ 0) (delta : Nat) :
    stickyBit small delta = decide (small.man.toNat % 2 ^ delta ≠ 0) := by
  rw [stickyBit]
  split
  next far =>
    rw [Nat.mod_eq_of_lt (man_lt_two_pow small far), decide_eq_true (BitVec.toNat_pos_of_ne_zero nonzero).ne']
  next => rfl

theorem toNat_stickyBit (nonzero : small.man ≠ 0) (delta : Nat) {w : Nat} (wide : 0 < w) :
    ((BitVec.ofBool (stickyBit small delta)).zeroExtend w).toNat = lostUnit small delta := by
  rw [toNat_zeroExtend _ wide, stickyBit_eq nonzero, lostUnit]
  split
  next none => simp [none]
  next lost => simp [lost]

/-! ### Sum and difference -/

/-- With equal signs the 33-bit sum is normalized, after a shift by 1 if it carries. -/
theorem addAligned_of_same_sign (nonzero : small.man ≠ 0) (same : big.sign = small.sign) :
    ∃ t : BitVec 33, t.toNat = alignedSum big small ∧ addAligned big small =
      if t.getLsbD 32 then normalize big.sign (big.exp.toNat + 1) ((t >>> 1).extractLsb' 0 32)
      else normalize big.sign big.exp.toNat (t.extractLsb' 0 32) := by
  refine ⟨_, ?_, if_pos same⟩
  have bigFits := big.man.isLt
  have smallFits : small.man.toNat / 2 ^ (big.exp.toNat - small.exp.toNat) < 2 ^ 32 :=
    (Nat.div_le_self _ _).trans_lt small.man.isLt
  rw [BitVec.toNat_or, toNat_stickyBit nonzero _ (by decide), BitVec.toNat_add,
    toNat_zeroExtend _ (by decide), toNat_zeroExtend _ (by decide), toNat_alignedMantissa,
    Nat.mod_eq_of_lt (by omega)]
  rfl

theorem addAligned_sum (nonzero : small.man ≠ 0) (same : big.sign = small.sign)
    (fits : alignedSum big small < 2 ^ 32) :
    normalizesTo big.sign big.exp.toNat (alignedSum big small) (addAligned big small) := by
  obtain ⟨t, value, result⟩ := addAligned_of_same_sign nonzero same
  have noCarry : ¬ t.getLsbD 32 = true := fun carry => by have := (getLsbD_top t).mp carry; omega
  have kept : (t.extractLsb' 0 32).toNat = alignedSum big small := by
    rw [BitVec.extractLsb'_toNat, Nat.shiftRight_zero, value, Nat.mod_eq_of_lt fits]
  rw [result, if_neg noCarry, ← kept]
  exact normalize_normalizesTo ..

theorem addAligned_carry (nonzero : small.man ≠ 0) (same : big.sign = small.sign)
    (carries : 2 ^ 32 ≤ alignedSum big small) :
    normalizesTo big.sign (big.exp.toNat + 1) (alignedSum big small / 2) (addAligned big small) := by
  obtain ⟨t, value, result⟩ := addAligned_of_same_sign nonzero same
  have carry : t.getLsbD 32 = true := (getLsbD_top t).mpr (by omega)
  have shifted : ((t >>> 1).extractLsb' 0 32).toNat = alignedSum big small / 2 := by
    have fits := t.isLt
    rw [BitVec.extractLsb'_toNat, Nat.shiftRight_zero, BitVec.toNat_ushiftRight, Nat.shiftRight_one, value,
      Nat.mod_eq_of_lt (by omega)]
  rw [result, if_pos carry, ← shifted]
  exact normalize_normalizesTo ..

/-- With opposite signs the 32-bit difference is normalized. -/
theorem addAligned_of_opposite_sign (nonzero : small.man ≠ 0) (opposite : big.sign ≠ small.sign) :
    ∃ m : BitVec 32, m.toNat = alignedDifference big small ∧
      addAligned big small = normalize big.sign big.exp.toNat m := by
  refine ⟨_, ?_, if_neg opposite⟩
  have fits : small.man.toNat / 2 ^ (big.exp.toNat - small.exp.toNat) ≤ 2 ^ 32 :=
    (Nat.div_le_self _ _).trans small.man.isLt.le
  rw [BitVec.toNat_or, toNat_stickyBit nonzero _ (by decide), BitVec.toNat_sub, toNat_alignedMantissa,
    ← Nat.sub_add_comm fits]
  rfl

theorem addAligned_difference (nonzero : small.man ≠ 0) (opposite : big.sign ≠ small.sign) :
    normalizesTo big.sign big.exp.toNat (alignedDifference big small) (addAligned big small) := by
  obtain ⟨m, value, result⟩ := addAligned_of_opposite_sign nonzero opposite
  rw [result, ← value]
  exact normalize_normalizesTo ..

/-- Equal magnitudes with opposite signs leave the standardized zero. -/
theorem addAligned_cancel (nonzero : small.man ≠ 0) (opposite : big.sign ≠ small.sign)
    (exp : big.exp = small.exp) (man : big.man = small.man) :
    addAligned big small = (Flt.zero, .exact) := by
  refine (addAligned_difference nonzero opposite).1 ?_
  simp [alignedDifference, lostUnit, exp, man, Nat.mod_one]

/-! ### The choice of the larger operand -/

theorem atLeast_iff (a b : Flt) :
    a.atLeast b = true ↔ b.exp < a.exp ∨ (b.exp = a.exp ∧ b.man ≤ a.man) := by
  rw [Flt.atLeast, Bool.or_eq_true, Bool.and_eq_true, decide_eq_true_iff, decide_eq_true_iff, beq_iff_eq,
    eq_comm (a := a.exp)]

theorem fadd_of_atLeast (ha : a.man ≠ 0) (hb : b.man ≠ 0) (larger : a.atLeast b = true) :
    fadd a b = addAligned a b := by rw [fadd, if_neg hb, if_neg ha, if_pos larger]

theorem fadd_of_not_atLeast (ha : a.man ≠ 0) (hb : b.man ≠ 0) (smaller : ¬ a.atLeast b = true) :
    fadd a b = addAligned b a := by rw [fadd, if_neg hb, if_neg ha, if_neg smaller]

/-- Operands that are each at least the other have one magnitude. -/
theorem magnitude_eq_of_atLeast (ab : a.atLeast b = true) (ba : b.atLeast a = true) :
    a.exp = b.exp ∧ a.man = b.man := by
  rw [atLeast_iff] at ab ba
  have exp : a.exp = b.exp := by bv_omega
  exact ⟨exp, by bv_omega⟩

theorem atLeast_of_not_atLeast (smaller : ¬ a.atLeast b = true) : b.atLeast a = true := by
  rw [atLeast_iff] at smaller ⊢
  bv_omega

theorem fadd_comm (ha : a.man ≠ 0) (hb : b.man ≠ 0) : fadd b a = fadd a b := by
  by_cases ab : a.atLeast b = true
  · rw [fadd_of_atLeast ha hb ab]
    by_cases ba : b.atLeast a = true
    · obtain ⟨exp, man⟩ := magnitude_eq_of_atLeast ab ba
      rw [fadd_of_atLeast hb ha ba]
      by_cases sign : a.sign = b.sign
      · have equal : a = b := by cases a; cases b; cases sign; cases exp; cases man; rfl
        rw [equal]
      · rw [addAligned_cancel hb sign exp man, addAligned_cancel ha (Ne.symm sign) exp.symm man.symm]
    · exact fadd_of_not_atLeast hb ha ba
  · rw [fadd_of_atLeast hb ha (atLeast_of_not_atLeast ab), fadd_of_not_atLeast ha hb ab]

/-! ### The testable properties of R224 -/

theorem man_ne_zero_of_normalized (top : normalized a) : a.man ≠ 0 := fun zero => by
  rw [normalized_iff, zero] at top
  simp at top

theorem fadd_self_negated (nonzero : a.man ≠ 0) :
    fadd a { a with sign := !a.sign } = (Flt.zero, .exact) := by
  have larger : a.atLeast { a with sign := !a.sign } = true := by simp [atLeast_iff]
  rw [fadd_of_atLeast (b := { a with sign := !a.sign }) nonzero nonzero larger]
  exact addAligned_cancel nonzero (Bool.not_ne_self a.sign).symm rfl rfl

/-- At a distance of 32 or more only the sticky bit of the smaller operand is left. -/
theorem fadd_of_far (top : normalized a) (nonzero : b.man ≠ 0) (far : b.exp.toNat + 32 ≤ a.exp.toNat) :
    fadd a b = ({ a with man := a.man ||| 1 }, .exact) := by
  have shiftedOut : b.man.toNat / 2 ^ (a.exp.toNat - b.exp.toNat) = 0 :=
    Nat.div_eq_of_lt (man_lt_two_pow b (by omega))
  have lost : lostUnit b (a.exp.toNat - b.exp.toNat) = 1 := by
    rw [lostUnit, Nat.mod_eq_of_lt (man_lt_two_pow b (by omega)),
      if_neg (BitVec.toNat_pos_of_ne_zero nonzero).ne']
  have value : (a.man ||| 1).toNat = a.man.toNat ||| 1 := BitVec.toNat_or ..
  have sum : alignedSum a b = (a.man ||| 1).toNat := by rw [alignedSum, shiftedOut, lost, value]; rfl
  have difference : alignedDifference a b = (a.man ||| 1).toNat := by
    rw [alignedDifference, shiftedOut, lost, value, Nat.sub_zero, Nat.add_mod_left, Nat.mod_eq_of_lt a.man.isLt]
  have stays : normalized { a with man := a.man ||| 1 } := by
    rw [normalized, BitVec.getLsbD_or, show a.man.getLsbD 31 = true from top, Bool.true_or]
  have larger : a.atLeast b = true := (atLeast_iff a b).mpr (.inl (BitVec.lt_def.mpr (by omega)))
  rw [fadd_of_atLeast (man_ne_zero_of_normalized top) nonzero larger]
  refine normalizesTo_of_normalized stays ?_
  by_cases sign : a.sign = b.sign
  · exact sum ▸ addAligned_sum nonzero sign (sum ▸ (a.man ||| 1).isLt)
  · exact difference ▸ addAligned_difference nonzero sign

end Sys2Proof.Machine
end

section
/-! Float products and quotients in closed form (45_float.md R227). -/

namespace Sys2Proof.Machine

open Sys2Proof.Claims

variable {a b : Flt}

/-! ### The product -/

theorem man_mul_man_lt (a b : Flt) : a.man.toNat * b.man.toNat < 2 ^ 64 :=
  (Nat.mul_lt_mul'' a.man.isLt b.man.isLt).trans_eq (pow_add 2 32 32).symm

theorem toNat_extendedProduct (a b : Flt) :
    (a.man.zeroExtend 64 * b.man.zeroExtend 64).toNat = a.man.toNat * b.man.toNat := by
  rw [BitVec.toNat_mul, toNat_zeroExtend _ (by decide), toNat_zeroExtend _ (by decide),
    Nat.mod_eq_of_lt (man_mul_man_lt a b)]

/-- The product of the mantissas, scaled to 64 bits, loses its low 32 bits. -/
theorem fmul_eq {k : Nat} (low : 2 ^ 63 ≤ a.man.toNat * b.man.toNat * 2 ^ k)
    (high : a.man.toNat * b.man.toNat * 2 ^ k < 2 ^ 64) :
    fmul a b = rangeResult (a.sign ^^ b.sign) ((a.exp.toNat : Int) + b.exp.toNat - 16384 - k)
      (a.man.toNat * b.man.toNat * 2 ^ k / 2 ^ 32) := by
  have positive : 0 < a.man.toNat * b.man.toNat := Nat.pos_of_ne_zero fun zero => by simp [zero] at low
  have nonzero : ¬ (a.man = 0 ∨ b.man = 0) := by
    rintro (zero | zero) <;> simp [zero] at positive
  have shift : k ≤ 63 := Nat.le_of_lt_succ (scale_lt positive high)
  have half : a.man.toNat * b.man.toNat * 2 ^ k / 2 ^ 32 < 2 ^ 32 := by omega
  rw [← toNat_extendedProduct] at low high half ⊢
  rw [fmul, if_neg nonzero, alignTop_eq k 63 _ _ shift low high, floatRange_eq_rangeResult,
    BitVec.extractLsb'_toNat, BitVec.toNat_ofNat, Nat.mod_eq_of_lt high, Nat.shiftRight_eq_div_pow,
    Nat.mod_eq_of_lt half]

theorem exists_productScale (ha : a.man ≠ 0) (hb : b.man ≠ 0) :
    ∃ k : Nat, 2 ^ 63 ≤ a.man.toNat * b.man.toNat * 2 ^ k ∧ a.man.toNat * b.man.toNat * 2 ^ k < 2 ^ 64 :=
  exists_scale (Nat.mul_pos (BitVec.toNat_pos_of_ne_zero ha) (BitVec.toNat_pos_of_ne_zero hb))
    (man_mul_man_lt a b)

/-- The product of normalized mantissas is shifted at most once. -/
theorem fmul_of_normalized (ha : normalized a) (hb : normalized b) :
    (2 ^ 63 ≤ a.man.toNat * b.man.toNat →
      fmul a b = rangeResult (a.sign ^^ b.sign) ((a.exp.toNat : Int) + b.exp.toNat - 16384)
        (a.man.toNat * b.man.toNat / 2 ^ 32)) ∧
    (a.man.toNat * b.man.toNat < 2 ^ 63 →
      fmul a b = rangeResult (a.sign ^^ b.sign) ((a.exp.toNat : Int) + b.exp.toNat - 16385)
        (a.man.toNat * b.man.toNat / 2 ^ 31)) := by
  have atLeast : 2 ^ 31 * 2 ^ 31 ≤ a.man.toNat * b.man.toNat :=
    Nat.mul_le_mul ((normalized_iff a).mp ha) ((normalized_iff b).mp hb)
  have below := man_mul_man_lt a b
  exact ⟨fun high => (fmul_eq (k := 0) (by omega) (by omega)).trans
      (congrArg₂ (rangeResult _) (by omega) (by omega)),
    fun low => (fmul_eq (k := 1) (by omega) (by omega)).trans
      (congrArg₂ (rangeResult _) (by omega) (by omega))⟩

/-! ### The quotient -/

/-- The quotient of the mantissas, scaled to 32 bits before the point, loses its fraction. -/
theorem fdiv_eq {k : Nat} (low : 2 ^ 31 * b.man.toNat ≤ a.man.toNat * 2 ^ k)
    (high : a.man.toNat * 2 ^ k < 2 ^ 32 * b.man.toNat) :
    fdiv a b = rangeResult (a.sign ^^ b.sign) ((a.exp.toNat : Int) - b.exp.toNat + 16384 + (32 - k))
      (a.man.toNat * 2 ^ k / b.man.toNat) := by
  have positive : 0 < a.man.toNat := Nat.pos_of_ne_zero fun zero => by
    rw [zero] at low high
    omega
  have nonzero : a.man ≠ 0 := fun zero => by simp [zero] at positive
  have shift : k < 64 := scale_lt positive (high.trans (by have := b.man.isLt; omega))
  have scale : quotientScale 64 0 a.man.toNat b.man.toNat = k :=
    quotientScale_eq 64 k 0 _ _ k.zero_le (by omega) low high
  rw [fdiv, if_neg nonzero, scale]
  rfl

theorem exists_quotientScale (ha : a.man ≠ 0) (hb : b.man ≠ 0) :
    ∃ k : Nat, 2 ^ 31 * b.man.toNat ≤ a.man.toNat * 2 ^ k ∧
      a.man.toNat * 2 ^ k < 2 ^ 32 * b.man.toNat := by
  have divisor := BitVec.toNat_pos_of_ne_zero hb
  have dividend := BitVec.toNat_pos_of_ne_zero ha
  have fits := a.man.isLt
  obtain ⟨k, low, high⟩ := exists_scale (half := 2 ^ 31 * b.man.toNat) dividend (by omega)
  exact ⟨k, low, by omega⟩

/-- The quotient of normalized mantissas is between 1/2 and 2. -/
theorem fdiv_of_normalized (ha : normalized a) (hb : normalized b) :
    (b.man ≤ a.man →
      fdiv a b = rangeResult (a.sign ^^ b.sign) ((a.exp.toNat : Int) - b.exp.toNat + 16385)
        (a.man.toNat * 2 ^ 31 / b.man.toNat)) ∧
    (a.man < b.man →
      fdiv a b = rangeResult (a.sign ^^ b.sign) ((a.exp.toNat : Int) - b.exp.toNat + 16384)
        (a.man.toNat * 2 ^ 32 / b.man.toNat)) := by
  have aLow := (normalized_iff a).mp ha
  have bLow := (normalized_iff b).mp hb
  have aHigh := a.man.isLt
  have bHigh := b.man.isLt
  rw [BitVec.le_def, BitVec.lt_def]
  exact ⟨fun atLeast => (fdiv_eq (k := 31) (by omega) (by omega)).trans
      (congrArg (rangeResult _ · _) (by omega)),
    fun less => (fdiv_eq (k := 32) (by omega) (by omega)).trans
      (congrArg (rangeResult _ · _) (by omega))⟩

end Sys2Proof.Machine
end

section
/-! The float operand and the results of the float instructions (45_float.md R221, R228, R230 to R235). -/

namespace Sys2Proof.Machine

open Sys2Proof.Claims

variable {s s₁ s₂ t : State} {mode : Mode} {disp : BitVec 8} {ea w₀ : Word} {apt : Bool}

/-! ### The operand -/

theorem State.readFloat_of_read (found : s.effectiveAddress mode disp = .ok (ea, apt) s₁)
    (first : s₁.memRead ea apt = .ok w₀ s₂) :
    s.readFloat mode disp = (s₂.memRead (ea + 1) apt).bind fun w₁ u =>
      (u.memRead (ea + 2) apt).bind fun w₂ u => .ok (unpack w₀ w₁ w₂) u :=
  (Access.bind_of_ok found _).trans (Access.bind_of_ok first _)

/-- A fault of the read ends each of the four instructions. -/
theorem exec_float_of_fault (fault : s.readFloat mode disp = .abandoned t) :
    ∀ i ∈ [Instr.fad mode disp, .fsb mode disp, .fmu mode disp, .fdv mode disp], exec i s = .next t := by
  intro i member
  fin_cases member
  all_goals exact Access.andThen_of_abandoned fault _

/-! ### The result -/

@[simp] theorem State.cur_reportZ (s : State) (c : Bool) (r : Reg) : (s.reportZ c).cur r = s.cur r := by
  cases c
  · rfl
  · exact State.cur_setFlag ..

theorem State.setFloatAccumulator_next (s : State) (f : Flt) :
    (s.setFloatAccumulator f).next = afterFloat s f false :=
  State.next_eq_jump (by simp [State.setFloatAccumulator])

theorem State.floatResult_next (s : State) (r : Flt × FloatReport) :
    (s.floatResult r).next = afterFloat s r.1 (decide (r.2 ≠ .exact)) := by
  have report : (r.2 != .exact) = decide (r.2 ≠ .exact) := by
    rw [bne, beq_eq_decide, decide_not]
  rw [State.floatResult, report]
  exact State.next_eq_jump (by simp [State.setFloatAccumulator])

/-- FAD, FSB and FMU after the operand is read. -/
theorem floatOperation_of_read {a b : Flt} (read : s.readFloat mode disp = .ok b t)
    (accumulator : t.floatAccumulator = a) (engine : Flt → Flt → Flt × FloatReport) :
    ((s.readFloat mode disp).andThen fun b u => .next (u.floatResult (engine u.floatAccumulator b)).next) =
      .next (afterFloat t (engine a b).1 (decide ((engine a b).2 ≠ .exact))) := by
  rw [Access.andThen_of_ok read, accumulator, State.floatResult_next]

theorem exec_fdv_of_read {a b : Flt} (read : s.readFloat mode disp = .ok b t)
    (accumulator : t.floatAccumulator = a) (divisor : b.man ≠ 0) :
    exec (.fdv mode disp) s =
      .next (afterFloat t (fdiv a b).1 (decide ((fdiv a b).2 ≠ .exact))) := by
  refine (Access.andThen_of_ok read _).trans ((if_neg divisor).trans ?_)
  rw [accumulator, State.floatResult_next]

/-- A zero divisor sets Z and leaves T, A, D (R233). -/
theorem exec_fdv_of_zero {b : Flt} (read : s.readFloat mode disp = .ok b t) (divisor : b.man = 0) :
    exec (.fdv mode disp) s = .next (t.setFlag .z true).next :=
  (Access.andThen_of_ok read _).trans (if_pos divisor)

/-! ### NLZ (R234) -/

/-- The magnitude of a word, in the upper half of a mantissa, keeps its value. -/
theorem toNat_nlzMantissa (v : Word) :
    (BitVec.ofNat 32 (v.toInt.natAbs * 2 ^ 16)).toNat = v.toInt.natAbs * 2 ^ 16 := by
  have low := v.le_toInt
  have high := v.toInt_lt
  exact Nat.mod_eq_of_lt (by omega)

/-- The float of a word whose magnitude `shift` doublings normalize. -/
theorem nlzValue_eq {v : Word} {shift : Nat} (low : 2 ^ 31 ≤ v.toInt.natAbs * 2 ^ (16 + shift))
    (high : v.toInt.natAbs * 2 ^ (16 + shift) < 2 ^ 32) {sc : Int} (minExp : 0 ≤ 16384 + sc - shift)
    (maxExp : 16384 + sc - shift ≤ 32767) :
    nlzValue v sc = ⟨v.getLsbD 15, BitVec.ofInt 15 (16384 + sc - shift),
      BitVec.ofNat 32 (v.toInt.natAbs * 2 ^ (16 + shift))⟩ := by
  have nonzero : v ≠ 0 := fun zero => by simp [zero] at low
  have result := (normalize_normalizesTo (v.getLsbD 15) (16384 + sc)
    (BitVec.ofNat 32 (v.toInt.natAbs * 2 ^ 16))).2 shift
  rw [toNat_nlzMantissa, mul_assoc, ← pow_add, rangeResult_of_inRange minExp maxExp] at result
  rw [nlzValue, if_neg nonzero, result low high]

/-- A word other than 0 becomes the normalized float of its value: at most 15 shifts, and an exponent in
range. -/
theorem nlzValue_of_ne_zero {v : Word} (nonzero : v.toInt ≠ 0) {sc : Int} (low : -128 ≤ sc)
    (high : sc < 128) :
    ∃ shift : Nat, normalized (nlzValue v sc) ∧ ((nlzValue v sc).sign = true ↔ v.toInt < 0) ∧
      shift ≤ 15 ∧
      (nlzValue v sc).man.toNat = v.toInt.natAbs * 2 ^ (16 + shift) ∧
      ((nlzValue v sc).exp.toNat : Int) = 16384 + sc - shift := by
  have positive : 0 < v.toInt.natAbs := Int.natAbs_pos.mpr nonzero
  have wordLow := v.le_toInt
  have wordHigh := v.toInt_lt
  obtain ⟨shift, atLeast, below⟩ :=
    exists_scale (n := v.toInt.natAbs * 2 ^ 16) (half := 2 ^ 31) (by omega) (by omega)
  rw [mul_assoc, ← pow_add] at atLeast below
  have few : 16 + shift < 32 := scale_lt positive below
  have man : (BitVec.ofNat 32 (v.toInt.natAbs * 2 ^ (16 + shift))).toNat =
      v.toInt.natAbs * 2 ^ (16 + shift) := Nat.mod_eq_of_lt below
  have exp : ((BitVec.ofInt 15 (16384 + sc - shift)).toNat : Int) = 16384 + sc - shift := by
    rw [BitVec.toNat_ofInt]
    omega
  rw [nlzValue_eq atLeast below (by omega) (by omega)]
  exact ⟨shift, (getLsbD_top _).mpr (man.symm ▸ atLeast), getLsbD_15_iff v, by omega, man, exp⟩

theorem exec_nlz (sc : Int) (s : State) :
    exec (.nlz sc) s = .next (afterFloat s (nlzValue (s.cur .a) sc) false) :=
  congrArg _ (s.setFloatAccumulator_next _)

/-! ### DNZ (R235) -/

theorem dnzMagnitude_of_man_eq_zero {f : Flt} (zero : f.man = 0) (sc : Int) : dnzMagnitude f sc = 0 := by
  simp [dnzMagnitude, zero]

theorem dnzMagnitude_of_nonneg {f : Flt} {sc k : Int} (h : k = 16 - ((f.exp.toNat : Int) - 16384 + sc))
    (right : 0 ≤ k) : dnzMagnitude f sc = f.man.toNat / 2 ^ k.toNat := by
  subst h
  exact if_pos right

theorem dnzMagnitude_of_neg {f : Flt} {sc k : Int} (h : k = 16 - ((f.exp.toNat : Int) - 16384 + sc))
    (left : k < 0) : dnzMagnitude f sc = f.man.toNat * 2 ^ (-k).toNat := by
  subst h
  exact if_neg (not_le.mpr left)

theorem exec_dnz (sc : Int) (s : State) :
    exec (.dnz sc) s =
      .next (((((setZIf s (decide (32767 < dnzMagnitude (tad s) sc))).setCur .a
        (BitVec.ofInt 16 (if (tad s).sign then -(dnzMagnitude (tad s) sc : Int)
          else dnzMagnitude (tad s) sc))).setCur .t 0).setCur .d 0).jump (s.cur .p + 1)) := by
  have magnitude : (if (tad s).man = 0 then 0 else dnzMagnitude (tad s) sc) = dnzMagnitude (tad s) sc :=
    ite_eq_right_iff.mpr fun zero => (dnzMagnitude_of_man_eq_zero zero sc).symm
  have result (m : Nat) : (if (tad s).sign then BitVec.ofInt 16 (-(m : Int)) else BitVec.ofNat 16 m) =
      BitVec.ofInt 16 (if (tad s).sign then -(m : Int) else m) := by
    rw [apply_ite (BitVec.ofInt 16), BitVec.ofInt_natCast]
  show execDnz sc s = _
  simp only [execDnz, show s.floatAccumulator = tad s from rfl, magnitude, result]
  exact congrArg _ (State.next_eq_jump (by simp))

end Sys2Proof.Machine
end

section
/-! The statements of 45_float.md. -/

namespace Sys2Proof.Proofs

open Sys2Proof.Machine Sys2Proof.Claims

/-- Settles O43: the three reads leave the registers, so the engine works on T, A, D as they were. -/
theorem floatInstructions : Obligations.FloatInstructions := by
  intro s s₁ s₂ s₃ t mode disp ea w₀ w₁ w₂ apt
  refine ⟨decode_mrWord (op := 0b10000) (fun _ => rfl) mode disp,
    decode_mrWord (op := 0b10001) (fun _ => rfl) mode disp,
    decode_mrWord (op := 0b10010) (fun _ => rfl) mode disp,
    decode_mrWord (op := 0b10011) (fun _ => rfl) mode disp, fun found first => ?_⟩
  have reads := State.readFloat_of_read found first
  have kept : s₂.banks = s.banks :=
    (State.memRead_ok first).banks.trans (State.effectiveAddress_ok found).banks
  refine ⟨fun fault i member => ⟨?secondFault, (State.memRead_abandoned fault).banks.trans kept⟩,
    fun second => ⟨fun fault i member => ⟨?thirdFault, ?thirdKept⟩, fun third => ?results⟩⟩
  case secondFault => exact exec_float_of_fault (reads.trans (Access.bind_of_abandoned fault _)) i member
  case thirdFault =>
    exact exec_float_of_fault
      (reads.trans ((Access.bind_of_ok second _).trans (Access.bind_of_abandoned fault _))) i member
  case thirdKept =>
    exact (State.memRead_abandoned fault).banks.trans ((State.memRead_ok second).banks.trans kept)
  case results =>
    intro a b b'
    have read : s.readFloat mode disp = .ok b t :=
      reads.trans ((Access.bind_of_ok second _).trans (Access.bind_of_ok third _))
    have registers (r : Reg) : t.cur r = s.cur r := by
      rw [(State.memRead_ok third).cur, (State.memRead_ok second).cur, State.cur_of_read found first]
    have accumulator : t.floatAccumulator = a := by
      rw [State.floatAccumulator, registers, registers, registers]
      rfl
    refine ⟨floatOperation_of_read read accumulator fadd,
      floatOperation_of_read read accumulator fun a b => fadd a b.negate,
      floatOperation_of_read read accumulator fmul, exec_fdv_of_read read accumulator, fun divisor => ?_⟩
    rw [exec_fdv_of_zero read divisor, State.setFlag_next_eq_jump (registers .p)]

/-- Settles O44: the float of A is its magnitude doubled to the top of the mantissa, and the magnitude that
DNZ makes is a division or a multiplication by a power of two. -/
theorem integerFloatConversion : Obligations.IntegerFloatConversion := by
  intro s scale sc a
  refine ⟨decode_nlz scale, decode_dnz scale, fun zero => ?zero, fun nonzero => ?nlz,
    dnzMagnitude (tad s) sc, exec_dnz sc s, fun zero => dnzMagnitude_of_man_eq_zero zero sc,
    fun k distance => ⟨fun right => ?right, dnzMagnitude_of_neg distance⟩⟩
  case zero =>
    have word : s.cur .a = 0 := BitVec.eq_of_toInt_eq zero
    rw [exec_nlz, nlzValue, if_pos word]
    rfl
  case nlz =>
    obtain ⟨shift, float⟩ := nlzValue_of_ne_zero nonzero scale.le_toInt scale.toInt_lt
    exact ⟨_, shift, exec_nlz sc s, float⟩
  case right =>
    rw [dnzMagnitude_of_nonneg distance right]
    exact ⟨Nat.div_mul_le_self _ _, by
      rw [mul_comm]
      exact Nat.lt_mul_div_succ _ (Nat.two_pow_pos _)⟩

/-- Settles O45: the larger operand is added first whichever comes first, and the far and the cancelling
operands are cases of the general sum and difference. -/
theorem floatAdditionProperties : Obligations.FloatAdditionProperties := by
  intro a b
  refine ⟨fun zero => if_pos zero, fun aZero bNonzero => (if_neg bNonzero).trans (if_pos aZero),
    fun aNonzero bNonzero => ⟨fadd_comm aNonzero bNonzero, fun larger => ?general⟩,
    fun top => fadd_self_negated (man_ne_zero_of_normalized top), fun top nonzero far => ?far⟩
  case general =>
    rw [fadd_of_atLeast aNonzero bNonzero ((atLeast_iff a b).mpr larger)]
    exact ⟨addAligned_sum bNonzero, addAligned_carry bNonzero, addAligned_difference bNonzero⟩
  case far =>
    rw [fadd_comm (man_ne_zero_of_normalized top) nonzero, and_self]
    exact fadd_of_far top nonzero far

/-- Settles O46: a product or quotient of nonzero mantissas has a scale, and the engine finds it. -/
theorem floatProductAndQuotientTruncate : Obligations.FloatProductAndQuotientTruncate := by
  intro a b outcome ea eb n d p
  exact ⟨fun zero => if_pos zero, fun _ zero => if_pos zero, fun _ => fmul_eq, fun _ => fdiv_eq,
    fun aNonzero bNonzero =>
      ⟨exists_productScale aNonzero bNonzero, exists_quotientScale aNonzero bNonzero⟩,
    fun aTop bTop =>
      have ⟨carry, noCarry⟩ := fmul_of_normalized aTop bTop
      have ⟨atLeastOne, belowOne⟩ := fdiv_of_normalized aTop bTop
      ⟨carry, noCarry, atLeastOne, belowOne⟩⟩

end Sys2Proof.Proofs
end

section
/-! The words of the system instructions: formats M8, ML and TX and the IDENT words (30_encoding.md R83,
R87, R88). -/

namespace Sys2Proof

open Sys2Proof.Claims

/-! ### Formats M8 and ML -/

/-- WAIT ignores its low byte (R92). -/
theorem decode_wait (ignored : BitVec 8) : decode (lowWord 0o151000 ignored) = .ok .wait :=
  decode_systemRow (function := 0b010) (i := fun _ => .wait)
    (fun w picked => by unfold decodeSystem; rw [picked]; rfl) ignored

theorem decode_mon (n : BitVec 8) : decode (lowWord 0o153000 n) = .ok (.mon n) :=
  decode_systemRow (function := 0b110) (i := .mon)
    (fun w picked => by unfold decodeSystem; rw [picked]; rfl) n

/-- The decoder gives back the level of a word of format ML, whose row is picked by `w[10:8]` and `w[7]`,
its register code kept or tested. -/
theorem decode_levelRow {row : BitVec 4} {code : BitVec 3} {i : Level → Instr}
    (picked : ∀ w, field w 8 3 = row.extractLsb' 1 3 → fieldBit w 7 = row.getLsbD 0 →
      field w 0 3 = code → decodeSystem w = .ok (i (field w 3 4))) (level : Level) :
    decode (mlWord (0b11010#5 ++ row ++ 0#7) level code) = .ok (i level) := by
  have word : mlWord (0b11010#5 ++ row ++ 0#7) level code = 0b11010#5 ++ row ++ (level ++ code) :=
    append_zero_or_zeroExtend (0b11010#5 ++ row) (level ++ code)
  generalize whole : 0b11010#5 ++ row ++ (level ++ code) = w at word
  have opcode : field w 11 5 = 0b11010#5 := by
    rw [← whole]
    exact (BitVec.extractLsb'_append_eq_of_le (by decide)).trans BitVec.extractLsb'_append_eq_left
  have function : field w 8 3 = row.extractLsb' 1 3 := by
    rw [← whole]
    exact (BitVec.extractLsb'_append_eq_of_le (by decide)).trans
      (BitVec.extractLsb'_append_eq_of_add_le (by decide))
  have half : fieldBit w 7 = row.getLsbD 0 := by
    rw [← whole, fieldBit, BitVec.getLsbD_append, if_neg (by decide), BitVec.getLsbD_append]
    rfl
  have levelField : field w 3 4 = level := by
    rw [← whole]
    exact (BitVec.extractLsb'_append_eq_of_add_le (by decide)).trans BitVec.extractLsb'_append_eq_left
  have codeField : field w 0 3 = code := by
    rw [← whole]
    exact (BitVec.extractLsb'_append_eq_of_add_le (by decide)).trans BitVec.extractLsb'_append_eq_right
  have slot : decode w = decodeSystem w := by
    unfold decode
    rw [opcode]
    rfl
  rw [word, slot, picked w function half codeField, levelField]

theorem decode_irr (level : Level) (r : RegField) :
    decode (mlWord 0o153600 level (codeOfReg r)) = .ok (.irr level r) :=
  decode_levelRow (row := 0b1111) (i := (.irr · r)) (fun w function half code => by
    unfold decodeSystem
    rw [function, half, drField, code, regOfCode_codeOfReg]
    rfl) level

theorem decode_irw (level : Level) (r : RegField) :
    decode (mlWord 0o153400 level (codeOfReg r)) = .ok (.irw level r) :=
  decode_levelRow (row := 0b1110) (i := (.irw · r)) (fun w function half code => by
    unfold decodeSystem
    rw [function, half, drField, code, regOfCode_codeOfReg]
    rfl) level

theorem decode_lrb (level : Level) : decode (mlWord 0o152600 level 0) = .ok (.lrb level) :=
  decode_levelRow (row := 0b1011) (i := .lrb) (fun w function half code => by
    unfold decodeSystem decodeBlock
    rw [function, half, code]
    rfl) level

theorem decode_srb (level : Level) : decode (mlWord 0o152400 level 2) = .ok (.srb level) :=
  decode_levelRow (row := 0b1010) (i := .srb) (fun w function half code => by
    unfold decodeSystem decodeBlock
    rw [function, half, code]
    rfl) level

/-! ### The IDENT words and format TX -/

theorem decode_identRow (low : BitVec 6) : decode (0b1100011110#10 ++ low) = decodeIdent low := by
  have inOpcode (lo n : Nat) (above : 6 ≤ lo) := field_append_six 0b1100011110#10 low above n
  have opcode := inOpcode 11 5 (by decide)
  have row := inOpcode 6 5 (by decide)
  have format := inOpcode 6 2 (by decide)
  have lowBits : field (0b1100011110#10 ++ low) 0 6 = low := BitVec.extractLsb'_append_eq_right
  rw [decode_extended opcode]
  unfold decodeExtended
  rw [row, format, lowBits]
  rfl

theorem append_low_of_pattern {w : Word} (pattern : w &&& 0o177700 = 0o143600) :
    w = 0b1100011110#10 ++ field w 0 6 := by
  have high : (w &&& 0o177700).extractLsb' 6 10 = w.extractLsb' 6 10 :=
    BitVec.extractLsb'_and.trans BitVec.and_allOnes
  rw [pattern] at high
  exact (BitVec.extractLsb'_append_extractLsb' (w := 10) (len := 6)).symm.trans
    (congrArg (· ++ field w 0 6) high.symm)

/-- Of the words 01436xx only the four of IDENT are instructions (R90). -/
theorem decodeIdent_illegal : ∀ low : BitVec 6,
    0b1100011110#10 ++ low ∉ [(0o143604 : Word), 0o143611, 0o143622, 0o143643] →
      decodeIdent low = .error .extendedSlot := by
  decide

theorem decode_physical (delta : BitVec 3) :
    let word (function : Word) : Word := 0o143300 ||| (delta.zeroExtend 16 <<< 3) ||| function
    decode (word 0) = .ok (.ldatx delta) ∧ decode (word 1) = .ok (.ldxtx delta) ∧
    decode (word 2) = .ok (.lddtx delta) ∧ decode (word 4) = .ok (.statx delta) ∧
    decode (word 5) = .ok (.stztx delta) ∧ decode (word 6) = .ok (.stdtx delta) ∧
    decode (word 7) = .error .extendedSlot := by
  revert delta
  decide

end Sys2Proof
end

section
/-! What the system instructions do, each equation with its end written out (46_system.md R260 to R291). -/

namespace Sys2Proof.Machine

open Sys2Proof.Claims

variable {s t : State} {i : Instr}

/-! ### One change of state, or a halt -/

/-- A privileged instruction that makes one change of state, not of its P, and goes on. -/
theorem exec_switch (w : State → State) (may : s.mayRunPrivileged)
    (meaning : exec i s = privileged s fun s => .next (w s).next) (sameP : (w s).cur .p = s.cur .p) :
    exec i s = .next ((w s).jump (s.cur .p + 1)) :=
  meaning.trans ((privileged_eq_of_mayRun may _).trans (congrArg _ (State.next_eq_jump sameP)))

/-- An unimplemented instruction runs in any ring: there is no check before it (R290). -/
theorem exec_unimplemented (h : unimplementedInstr i = true) (s : State) : exec i s = haltCpu s := by
  cases i
  case addd | subd | comd | pack | upack | shde | bfill | movb | movbf | movew | init | entr | leave |
      eleav | setpt | clept | clnreent | chreentpages | clepu | ldbtx | lwcs => rfl
  all_goals cases h

/-! ### WAIT and MON (R268, R269) -/

/-- Raising an interrupt leaves the registers (60_exceptions.md R311). -/
theorem State.reg_raiseInt (s : State) (l m : Level) (mask : Word) (r : Reg) :
    (s.raiseInt l mask).reg m r = s.reg m r := by
  rw [State.raiseInt_eq]
  rfl

theorem State.pil_raiseInt (s : State) (l : Level) (mask : Word) : (s.raiseInt l mask).pil = s.pil := by
  rw [State.raiseInt_eq]

theorem State.cur_raiseInt (s : State) (l : Level) (mask : Word) (r : Reg) :
    (s.raiseInt l mask).cur r = s.cur r := by
  rw [State.cur, State.pil_raiseInt, State.reg_raiseInt, State.cur]

/-- A register write leaves the P of the current level, unless it is that register. -/
theorem State.cur_p_setReg (s : State) {l : Level} {r : Reg} (other : r = .p → l ≠ s.pil)
    (v : Word) : (s.setReg l r v).cur .p = s.cur .p := by
  rw [State.cur, State.pil_setReg, State.reg_setReg, if_neg fun same => other same.2.symm same.1.symm,
    State.cur]

theorem State.cur_setFlags (s : State) (l : Level) (f : BitVec 8) (r : Reg) :
    (s.setFlags l f).cur r = s.cur r := s.reg_setFlags l s.pil r f

/-- WAIT gives up the level, or stops the CPU (R268). -/
theorem exec_wait (may : s.mayRunPrivileged) :
    exec .wait s = .next ((if s.ioni then s.giveUp else { s with runMode := .stop }).jump
      (s.cur .p + 1)) :=
  exec_switch (fun s => if s.ioni then s.giveUp else { s with runMode := .stop }) may rfl
    (by split <;> rfl)

theorem exec_mon (n : BitVec 8) (s : State) :
    exec (.mon n) s =
      .next (((s.raiseInt 14 0o2).setReg 14 .t (n.signExtend 16)).jump (s.cur .p + 1)) :=
  congrArg _ (State.next_eq_jump
    ((State.cur_p_setReg _ (r := .t) nofun _).trans (s.cur_raiseInt 14 0o2 .p)))

/-! ### IDENT (R270) -/

/-- The oldest entry of a level is the first of it in the chain. -/
theorem takeIdent_of_split {level : Level} {older newer : List IdentEntry} {e : IdentEntry}
    (found : e.level = level) (others : ∀ x ∈ older, x.level ≠ level) :
    takeIdent level (older ++ e :: newer) = some (e, older ++ newer) := by
  induction older with
  | nil => exact if_pos found
  | cons x older ih =>
    have rest := ih fun y member => others y (List.mem_cons_of_mem x member)
    rw [List.cons_append, takeIdent, if_neg (others x List.mem_cons_self), rest]
    rfl

theorem takeIdent_of_none {level : Level} {chain : List IdentEntry}
    (absent : ∀ x ∈ chain, x.level ≠ level) : takeIdent level chain = none := by
  induction chain with
  | nil => rfl
  | cons x chain ih =>
    have rest := ih fun y member => absent y (List.mem_cons_of_mem x member)
    rw [takeIdent, if_neg (absent x List.mem_cons_self), rest]
    rfl

/-- The four IDENT words differ in their level only. -/
theorem exec_ident {level : Level}
    (row : (level, i) ∈ [((10 : Level), Instr.identPL10), (11, .identPL11), (12, .identPL12),
      (13, .identPL13)]) : exec i s = identLevel level s := by
  simp only [List.mem_cons, Prod.mk.injEq, List.not_mem_nil, or_false] at row
  rcases row with ⟨rfl, rfl⟩ | ⟨rfl, rfl⟩ | ⟨rfl, rfl⟩ | ⟨rfl, rfl⟩ <;> rfl

theorem identLevel_of_some {level : Level} {e : IdentEntry} {rest : List IdentEntry}
    (may : s.mayRunPrivileged) (taken : takeIdent level s.identChain = some (e, rest)) :
    identLevel level s =
      .next (({ s with identChain := rest }.setCur .a e.code).jump (s.cur .p + 1)) := by
  rw [identLevel, privileged_eq_of_mayRun may, taken]
  exact congrArg _ (State.next_setCur rfl (by decide) _)

theorem identLevel_of_none {level : Level} (may : s.mayRunPrivileged)
    (absent : takeIdent level s.identChain = none) :
    identLevel level s = .next ((s.raiseInt 14 0o200).jump (s.cur .p + 1)) := by
  rw [identLevel, privileged_eq_of_mayRun may, absent]
  exact congrArg _ (State.next_eq_jump (s.cur_raiseInt 14 0o200 .p))

/-! ### Registers of any level (R271 to R274) -/

theorem exec_irr_sts (may : s.mayRunPrivileged) (level : Level) :
    exec (.irr level none) s = .next ((s.setCur .a (s.sts level)).jump (s.cur .p + 1)) :=
  exec_switch (fun s => s.setCur .a (s.sts level)) may rfl (by rw [State.cur_setCur, if_neg (by decide)])

theorem exec_irr_reg (may : s.mayRunPrivileged) (level : Level) (r : Reg) :
    exec (.irr level (some r)) s = .next ((s.setCur .a (s.reg level r)).jump (s.cur .p + 1)) :=
  exec_switch (fun s => s.setCur .a (s.reg level r)) may rfl (by rw [State.cur_setCur, if_neg (by decide)])

theorem exec_irw_flags (may : s.mayRunPrivileged) (level : Level) :
    exec (.irw level none) s =
      .next ((s.setFlags level ((s.cur .a).extractLsb' 0 8)).jump (s.cur .p + 1)) :=
  exec_switch (fun s => s.setFlags level ((s.cur .a).extractLsb' 0 8)) may rfl
    (s.cur_setFlags level _ .p)

/-- IRW leaves the P of the current level, whichever register it writes (R272). -/
theorem exec_irw_reg (may : s.mayRunPrivileged) (level : Level) (r : Reg) :
    exec (.irw level (some r)) s =
      .next ((if r = .p ∧ level = s.pil then s else s.setReg level r (s.cur .a)).jump
        (s.cur .p + 1)) := by
  refine exec_switch (fun s => if r = .p ∧ level = s.pil then s else s.setReg level r (s.cur .a)) may
    rfl ?_
  split
  next => rfl
  next other => exact s.cur_p_setReg (fun isP same => other ⟨isP, same⟩) _

theorem State.memReadList_ok {addrs vs : List Word} {apt : Bool}
    (h : s.memReadList apt addrs = .ok vs t) : ReadStep s t := by
  have k := s.memReadList_post apt addrs
  rw [h] at k
  exact k.1

theorem State.memReadList_abandoned {addrs : List Word} {apt : Bool}
    (h : s.memReadList apt addrs = .abandoned t) : FaultStep s t := by
  have k := State.memReadList_post apt addrs s
  rw [h] at k
  exact k

theorem State.memWriteList_ok {writes : List (Word × Word)} {apt : Bool}
    (h : s.memWriteList apt writes = .ok () t) : WriteStep s t := by
  have k := State.memWriteList_post apt writes s
  rw [h] at k
  exact k

theorem State.memWriteList_abandoned {writes : List (Word × Word)} {apt : Bool}
    (h : s.memWriteList apt writes = .abandoned t) : WriteFaultStep s t := by
  have k := State.memWriteList_post apt writes s
  rw [h] at k
  exact k

/-- A block loaded to any level leaves the P of the current one (R273). -/
theorem cur_p_afterBlockLoad (s : State) (level : Level) (p x t a d l sts b : Word) :
    (afterBlockLoad s level p x t a d l sts b).cur .p = s.cur .p := by
  have start : (if level = s.pil then s else s.setReg level .p p).cur .p = s.cur .p := by
    split
    next => rfl
    next other => exact s.cur_p_setReg (fun _ => other) p
  unfold afterBlockLoad
  simp only [State.cur_p_setReg, State.cur_setFlags, start, reduceCtorEq, false_implies]

theorem exec_lrb_of_read {level : Level} {v₀ v₁ v₂ v₃ v₄ v₅ v₆ v₇ : Word} (may : s.mayRunPrivileged)
    (read : s.memReadList true s.blockAddresses = .ok [v₀, v₁, v₂, v₃, v₄, v₅, v₆, v₇] t) :
    exec (.lrb level) s =
      .next ((afterBlockLoad t level v₀ v₁ v₂ v₃ v₄ v₅ v₆ v₇).jump (s.cur .p + 1)) := by
  show execLrb level s = _
  rw [execLrb, privileged_eq_of_mayRun may, Access.andThen_of_ok read]
  exact congrArg _ (State.next_eq_jump
    ((cur_p_afterBlockLoad ..).trans ((State.memReadList_ok read).cur .p)))

theorem exec_srb_of_written {level : Level} (may : s.mayRunPrivileged)
    (written : s.memWriteList true (s.blockAddresses.zip (s.blockValues level)) = .ok () t) :
    exec (.srb level) s = .next (t.jump (s.cur .p + 1)) := by
  show execSrb level s = _
  rw [execSrb, privileged_eq_of_mayRun may, Access.andThen_of_ok written,
    State.next_eq_jump ((State.memWriteList_ok written).cur .p)]

theorem exec_lrb_of_abandoned {level : Level} (may : s.mayRunPrivileged)
    (fault : s.memReadList true s.blockAddresses = .abandoned t) : exec (.lrb level) s = .next t := by
  show execLrb level s = _
  rw [execLrb, privileged_eq_of_mayRun may, Access.andThen_of_abandoned fault]

theorem exec_srb_of_abandoned {level : Level} (may : s.mayRunPrivileged)
    (fault : s.memWriteList true (s.blockAddresses.zip (s.blockValues level)) = .abandoned t) :
    exec (.srb level) s = .next t := by
  show execSrb level s = _
  rw [execSrb, privileged_eq_of_mayRun may, Access.andThen_of_abandoned fault]

/-! ### Physical memory (R277 to R284) -/

/-- An instruction that loads a register from the physical word of its address. -/
theorem exec_physLoad {r : Reg} (pa : State → PhysAddr) (may : s.mayRunPrivileged)
    (meaning : exec i s = privileged s fun s => physLoad r (pa s) s) (notP : r ≠ .p)
    (installed : (pa s).toNat < s.physWords) :
    exec i s = .next ((s.setCur r (s.phys (pa s))).jump (s.cur .p + 1)) := by
  rw [meaning, privileged_eq_of_mayRun may, physLoad, State.physRead_eq installed]
  exact congrArg _ (State.next_setCur rfl notP _)

theorem exec_physLoad_of_absent {r : Reg} (pa : State → PhysAddr) (may : s.mayRunPrivileged)
    (meaning : exec i s = privileged s fun s => physLoad r (pa s) s)
    (absent : s.physWords ≤ (pa s).toNat) : exec i s = .refused .beyondPhysWords := by
  rw [meaning, privileged_eq_of_mayRun may, physLoad, State.physRead_refused absent]
  rfl

/-- An instruction that stores a word to physical memory. -/
theorem exec_physStore (pa : State → PhysAddr) (v : State → Word) (may : s.mayRunPrivileged)
    (meaning : exec i s = privileged s fun s => physStore (pa s) (v s) s)
    (installed : (pa s).toNat < s.physWords) :
    exec i s = .next ((s.setPhys (pa s) (v s)).jump (s.cur .p + 1)) := by
  rw [meaning, privileged_eq_of_mayRun may, physStore, State.physWrite_eq installed]
  rfl

theorem exec_physStore_of_absent (pa : State → PhysAddr) (v : State → Word) (may : s.mayRunPrivileged)
    (meaning : exec i s = privileged s fun s => physStore (pa s) (v s) s)
    (absent : s.physWords ≤ (pa s).toNat) : exec i s = .refused .beyondPhysWords := by
  rw [meaning, privileged_eq_of_mayRun may, physStore, State.physWrite_refused absent]
  rfl

/-- LDDTX loads A and D from two words (R281). -/
theorem exec_lddtx_of_installed {delta : BitVec 3} (may : s.mayRunPrivileged)
    (first : (s.txAddress delta).toNat < s.physWords)
    (second : (s.txAddress delta + 1).toNat < s.physWords) :
    exec (.lddtx delta) s = .next (((s.setCur .a (s.phys (s.txAddress delta))).setCur .d
      (s.phys (s.txAddress delta + 1))).jump (s.cur .p + 1)) := by
  show execLddtx delta s = _
  rw [execLddtx, privileged_eq_of_mayRun may]
  dsimp only
  rw [Access.andThen_of_ok (State.physRead_eq first), Access.andThen_of_ok (State.physRead_eq second),
    State.next_setCur_a_d rfl]

theorem exec_lddtx_of_absent {delta : BitVec 3} (may : s.mayRunPrivileged)
    (absent : s.physWords ≤ (s.txAddress delta).toNat ∨ s.physWords ≤ (s.txAddress delta + 1).toNat) :
    exec (.lddtx delta) s = .refused .beyondPhysWords := by
  show execLddtx delta s = _
  rw [execLddtx, privileged_eq_of_mayRun may]
  dsimp only
  rcases Nat.lt_or_ge (s.txAddress delta).toNat s.physWords with first | first
  · rw [Access.andThen_of_ok (State.physRead_eq first),
      State.physRead_refused (absent.resolve_left (Nat.not_le.mpr first))]
    rfl
  · rw [State.physRead_refused first]
    rfl

/-- STDTX stores A and D to two words (R284). -/
theorem exec_stdtx_of_installed {delta : BitVec 3} (may : s.mayRunPrivileged)
    (first : (s.txAddress delta).toNat < s.physWords)
    (second : (s.txAddress delta + 1).toNat < s.physWords) :
    exec (.stdtx delta) s = .next (((s.setPhys (s.txAddress delta) (s.cur .a)).setPhys
      (s.txAddress delta + 1) (s.cur .d)).jump (s.cur .p + 1)) := by
  show execStdtx delta s = _
  rw [execStdtx, privileged_eq_of_mayRun may]
  dsimp only
  rw [Access.andThen_of_ok (State.physWrite_eq first _),
    Access.andThen_of_ok (State.physWrite_eq (s := s.setPhys _ _) second _)]
  rfl

theorem exec_stdtx_of_absent {delta : BitVec 3} (may : s.mayRunPrivileged)
    (absent : s.physWords ≤ (s.txAddress delta).toNat ∨ s.physWords ≤ (s.txAddress delta + 1).toNat) :
    exec (.stdtx delta) s = .refused .beyondPhysWords := by
  show execStdtx delta s = _
  rw [execStdtx, privileged_eq_of_mayRun may]
  dsimp only
  rcases Nat.lt_or_ge (s.txAddress delta).toNat s.physWords with first | first
  · have second : (s.setPhys (s.txAddress delta) (s.cur .a)).physWords ≤ (s.txAddress delta + 1).toNat :=
      absent.resolve_left (Nat.not_le.mpr first)
    rw [Access.andThen_of_ok (State.physWrite_eq first _), State.physWrite_refused second]
    rfl
  · rw [State.physWrite_refused first]
    rfl

end Sys2Proof.Machine
end

section
/-! The statements of 46_system.md on mode switches, WAIT, MON, IDENT, other levels and physical memory. -/

namespace Sys2Proof.Proofs

open Sys2Proof.Machine

/-- Settles O51: the accesses leave the registers, and no register write but that of P on the current level
moves the instruction's P. -/
theorem otherLevelsRegisters : Obligations.OtherLevelsRegisters := by
  intro s t level r v₀ v₁ v₂ v₃ v₄ v₅ v₆ v₇ may x p words block
  refine ⟨decode_irr level (some r), decode_irr level none, decode_irw level (some r),
    decode_irw level none, decode_lrb level, decode_srb level, exec_irr_reg may level r,
    exec_irr_sts may level, exec_irw_flags may level, fun isP same => ?ownP, fun other => ?otherReg,
    exec_lrb_of_read may, fun fault => ?lrbFault, exec_srb_of_written may, fun fault => ?srbFault⟩
  case ownP => rw [exec_irw_reg may, if_pos ⟨isP, same⟩]
  case otherReg => rw [exec_irw_reg may, if_neg other]
  case lrbFault => exact ⟨exec_lrb_of_abandoned may fault, (State.memReadList_abandoned fault).banks⟩
  case srbFault => exact ⟨exec_srb_of_abandoned may fault, (State.memWriteList_abandoned fault).banks⟩

/-- Settles O20: the 21 instructions have no check before the halt, and the step looks at the run mode
first. -/
theorem unimplementedHalts : Obligations.UnimplementedHalts :=
  ⟨fun _ s unimplemented => exec_unimplemented unimplemented s, fun _ down => if_pos down⟩

/-- Settles O48: each is one change of the system state behind the check. -/
theorem modeSwitches : Obligations.ModeSwitches := by
  intro s may done
  exact ⟨rfl, rfl, rfl, rfl, rfl, rfl, rfl, rfl, rfl,
    exec_switch ({ · with ioni := false }) may rfl rfl,
    exec_switch ({ · with ioni := true }) may rfl rfl,
    exec_switch ({ · with poni := false }) may rfl rfl,
    exec_switch ({ · with poni := true }) may rfl rfl,
    exec_switch ({ · with poni := false, ioni := false }) may rfl rfl,
    exec_switch ({ · with poni := true, ioni := true }) may rfl rfl,
    exec_switch ({ · with sexi := true }) may rfl rfl,
    exec_switch ({ · with sexi := false }) may rfl rfl,
    exec_switch ({ · with runMode := .stop }) may rfl rfl, rfl⟩

/-- Settles O49: raising the cause and writing T of level 14 leave the P that MON advances. -/
theorem waitAndMonitorCall : Obligations.WaitAndMonitorCall := by
  intro s n
  refine ⟨decode_wait n, decode_mon n, fun may => ⟨fun off => ?stop, fun on => ?giveUp⟩, exec_mon n s⟩
  case stop => rw [exec_wait may, if_neg (Bool.eq_false_iff.mp off)]
  case giveUp =>
    rw [exec_wait may, if_pos on]
    rfl

/-- Settles O50: the first entry of the level in the chain is the oldest. -/
theorem identTakesOldestEntry : Obligations.IdentTakesOldestEntry := by
  refine ⟨fun w pattern others => ⟨.extendedSlot, ?illegal⟩, fun s level i may row =>
    ⟨rfl, rfl, rfl, rfl, fun newer older e chain found others => ?taken, fun absent => ?absent⟩⟩
  case illegal =>
    rw [append_low_of_pattern pattern] at others ⊢
    rw [decode_identRow, decodeIdent_illegal _ others]
  case taken =>
    rw [exec_ident row]
    exact identLevel_of_some may (chain ▸ takeIdent_of_split found others)
  case absent =>
    rw [exec_ident row, identLevel_of_none may (takeIdent_of_none absent)]

/-- Settles O53: a physical access asks for nothing but that its word is installed. -/
theorem physicalMemoryInstructions : Obligations.PhysicalMemoryInstructions := by
  intro s delta may panel pa word done
  obtain ⟨ldatx, ldxtx, lddtx, statx, stztx, stdtx, illegal⟩ := decode_physical delta
  refine ⟨rfl, rfl, ldatx, ldxtx, lddtx, statx, stztx, stdtx, ⟨_, illegal⟩,
    fun installed => ?panel, fun installed => ?oneWord,
    fun first second =>
      ⟨exec_lddtx_of_installed may first second, exec_stdtx_of_installed may first second⟩,
    fun absent => ?panelAbsent, fun absent i row => ?oneWordAbsent,
    fun absent => ⟨exec_lddtx_of_absent may absent, exec_stdtx_of_absent may absent⟩⟩
  case panel =>
    exact ⟨exec_physLoad State.panelAddress may rfl (by decide) installed,
      exec_physStore State.panelAddress (·.cur .t) may rfl installed⟩
  case oneWord =>
    exact ⟨exec_physLoad (·.txAddress delta) may rfl (by decide) installed,
      exec_physLoad (·.txAddress delta) may rfl (by decide) installed,
      exec_physStore (·.txAddress delta) (·.cur .a) may rfl installed,
      exec_physStore (·.txAddress delta) (fun _ => 0) may rfl installed⟩
  case panelAbsent =>
    exact ⟨exec_physLoad_of_absent State.panelAddress may rfl absent,
      exec_physStore_of_absent State.panelAddress (·.cur .t) may rfl absent⟩
  case oneWordAbsent =>
    simp only [List.mem_cons, List.not_mem_nil, or_false] at row
    rcases row with rfl | rfl | rfl | rfl
    · exact exec_physLoad_of_absent (·.txAddress delta) may rfl absent
    · exact exec_physLoad_of_absent (·.txAddress delta) may rfl absent
    · exact exec_physStore_of_absent (·.txAddress delta) (·.cur .a) may rfl absent
    · exact exec_physStore_of_absent (·.txAddress delta) (fun _ => 0) may rfl absent

end Sys2Proof.Proofs
end

section
/-! Interrupts in the words of 60_exceptions.md: raising one, the interrupt check, the privileged check
(R311 to R315, R326, R331); the turns of the environment; the calls of the devices (46_system.md R275). -/

namespace Sys2Proof.Machine

open Sys2Proof.Claims

variable {s : State} {i : Instr}

/-! ### Raising an interrupt (R311) -/

/-- A set bit is a bit joined in. -/
theorem setBitTo_true {w : Nat} (bits : BitVec w) (n : Nat) :
    setBitTo bits n true = bits ||| (1#w <<< n) := rfl

theorem State.raiseInt_enabled {mask : Word} (enabled : (s.iid ||| mask) &&& s.iie ≠ 0) :
    s.raiseInt 14 mask = { s with iid := s.iid ||| mask, pid := s.pid ||| 0o40000 } := by
  rw [State.raiseInt, if_pos rfl, if_pos enabled]
  rfl

theorem State.raiseInt_disabled {mask : Word} (disabled : (s.iid ||| mask) &&& s.iie = 0) :
    s.raiseInt 14 mask = { s with iid := s.iid ||| mask } := by
  rw [State.raiseInt, if_pos rfl, if_neg (not_not_intro disabled)]

theorem State.raiseInt_other {level : Level} (other : level ≠ 14) (mask : Word) :
    s.raiseInt level mask = { s with pid := s.pid ||| (1#16 <<< level.toNat) } := by
  rw [State.raiseInt, if_neg other, setBitTo_true]

/-! ### The interrupt check (R314, R315) -/

theorem State.interruptCheck_switch (on : s.ioni = true) (other : s.pk ≠ s.pil) :
    s.interruptCheck = { s with pvl := s.pil, pil := s.pk } := by
  rw [State.interruptCheck, if_pos (by simp [on, other])]

theorem State.interruptCheck_stay (stay : s.ioni = false ∨ s.pk = s.pil) : s.interruptCheck = s := by
  rw [State.interruptCheck, if_neg (by rcases stay with off | same <;> simp [*])]

/-! ### The privileged check (R326) -/

/-- Every privileged instruction has the check before it (R331), which fails on an unprivileged level. -/
theorem exec_of_privilegedInstr (h : privilegedInstr i = true) (low : s.unprivileged) :
    exec i s = .next (s.raiseCause .privilegedInstruction) := by
  cases i
  case tra | trr | mcl | mst | iof | ion | pof | pon | piof | pion | sex | rex | wait | identPL10 |
      identPL11 | identPL12 | identPL13 | irr | irw | lrb | srb | iox | ioxt | exam | depo | ldatx |
      ldxtx | lddtx | statx | stztx | stdtx | opcom =>
    simp only [exec, execTra, execTrr, execMcl, execMst, execIof, execIon, execPof, execPon, execPiof,
      execPion, execSex, execRex, execWait, execIdentPL10, execIdentPL11, execIdentPL12, execIdentPL13,
      identLevel, execIrr, execIrw, execLrb, execSrb, execIox, execIoxt, execExam, execDepo, execLdatx,
      execLdxtx, execLddtx, execStatx, execStztx, execStdtx, execOpcom,
      privileged_eq_of_unprivileged low]
  all_goals cases h

/-! ### Turns of the environment (00_scope.md R9) -/

/-- A turn of a device or of the host is its action. -/
theorem step_of_env {rest : List Turn} {action : EnvAction} (running : s.runMode ≠ .shutdown)
    (turn : s.turns = .env action :: rest) : step s = { s with turns := rest }.act action := by
  unfold step machineTurn
  rw [if_neg running, turn]

/-- An access made for a device or a loader ends its turn. -/
theorem Access.alone_eq_endsTurn {α : Type} (x : Access α) : x.alone = endsTurn x := by
  cases x <;> rfl

/-! ### IOX and IOXT (46_system.md R275, R276) -/

/-- The state after a call of the devices, before the instruction ends. -/
def State.afterIoCall (s : State) (address : Word) : State :=
  let answer := Config.ioOp s.ioCount address (s.cur .a)
  let u := { s with ioCount := s.ioCount + 1 }.setCur .a answer.1
  if answer.2 then u else u.raiseInt 14 0o200

theorem State.cur_p_afterIoCall (s : State) (address : Word) :
    (s.afterIoCall address).cur .p = s.cur .p := by
  have answered (v : Word) : ({ s with ioCount := s.ioCount + 1 }.setCur .a v).cur .p = s.cur .p := by
    rw [State.cur_setCur, if_neg (by decide)]
    rfl
  unfold State.afterIoCall
  dsimp only
  split
  · exact answered _
  · rw [State.cur_raiseInt, answered]

theorem ioCall_eq (address : Word) (s : State) :
    ioCall address s = .next ((s.afterIoCall address).jump (s.cur .p + 1)) := by
  rw [← State.next_eq_jump (s.cur_p_afterIoCall address)]
  unfold ioCall State.afterIoCall
  dsimp only
  cases (Config.ioOp s.ioCount address (s.cur .a)).2
  · simp only [Bool.false_eq_true, if_false]
    rw [State.raiseCause, ← State.raiseInt_eq]
    rfl
  · rfl

end Sys2Proof.Machine

namespace Sys2Proof

theorem decode_iox (dev : BitVec 11) : decode (0o164000 ||| dev.zeroExtend 16) = .ok (.iox dev) := by
  have word : (0o164000 : Word) ||| dev.zeroExtend 16 = 0b11101#5 ++ dev :=
    append_zero_or_zeroExtend 0b11101#5 dev
  have opcode : field (0b11101#5 ++ dev) 11 5 = 0b11101#5 := BitVec.extractLsb'_append_eq_left
  have device : field (0b11101#5 ++ dev) 0 11 = dev := BitVec.extractLsb'_append_eq_right
  rw [word]
  unfold decode
  rw [opcode, device]
  rfl

end Sys2Proof

namespace Sys2Proof.Proofs

open Sys2Proof.Machine

/-- Settles O15, by the two branches of `raiseInt`. -/
theorem raiseInterrupt : Obligations.RaiseInterrupt := by
  intro s level mask
  refine ⟨?_, ?_, fun other => State.raiseInt_other other mask⟩
  · rintro rfl enabled
    exact State.raiseInt_enabled enabled
  · rintro rfl disabled
    exact State.raiseInt_disabled disabled

/-- Settles O16, from the defining property of the highest bit. -/
theorem pkIsHighestPendingEnabled : Obligations.PkIsHighestPendingEnabled := by
  intro s
  refine ⟨fun none => ?_, highestBit_spec _⟩
  rw [State.pk, none]
  exact highestBit_zero

/-- Settles O17, by the two branches of the interrupt check. -/
theorem levelSwitch : Obligations.LevelSwitch := fun _ =>
  ⟨State.interruptCheck_switch, State.interruptCheck_stay⟩

/-- Settles O19: a privileged instruction has the check before it, which fails in ring 0 and 1. -/
theorem privilegedInstructionTraps : Obligations.PrivilegedInstructionTraps :=
  fun _ _ isPrivileged paging ring =>
    exec_of_privilegedInstr isPrivileged ⟨paging, BitVec.lt_def.mpr ring⟩

/-- Settles O21: the CPU's turn by run mode. -/
theorem runModes : Obligations.RunModes := by
  intro s mine
  rw [step_of_cpusTurn mine]
  refine ⟨fun stop => ?_, fun t single stepped => ?_, fun run => ?_⟩
  · rw [cpuTurn, State.runMode_turnTaken, stop]
  · rw [cpuTurn, State.runMode_turnTaken, single]
    dsimp only
    rw [stepped]
    rfl
  · rw [cpuTurn, State.runMode_turnTaken, run]

/-- Settles O22: a turn of the environment is one action, by cases of the action. -/
theorem deviceActionsAreSteps : Obligations.DeviceActionsAreSteps := by
  intro s rest running q acts
  have turn {a : EnvAction} {r : Result} (action : q.act a = r) : acts a r :=
    fun script => (step_of_env running script).trans action
  exact ⟨fun _ _ => turn rfl, fun _ _ _ => turn rfl,
    fun _ _ _ other => turn (congrArg _ (State.raiseInt_other other 0)),
    fun pa v installed => turn (congrArg Access.alone (State.physWrite_eq (s := q) installed v)),
    fun pa v absent => turn (congrArg Access.alone (State.physWrite_refused (s := q) absent v)),
    fun _ _ => turn (Access.alone_eq_endsTurn _), fun _ _ _ => turn (Access.alone_eq_endsTurn _),
    fun _ _ => turn (Access.alone_eq_endsTurn _), fun _ stopped => turn (congrArg _ (if_pos stopped)),
    fun _ started => turn (congrArg _ (if_neg started)), fun _ => turn rfl, fun _ _ => turn rfl⟩

/-- Settles O52: with no answer the call raises the IOX error, which leaves the P it advances. -/
theorem inputOutput : Obligations.InputOutput := by
  intro s dev may after
  refine ⟨decode_iox dev, rfl, ?_, ?_⟩
  · exact (privileged_eq_of_mayRun may _).trans (ioCall_eq _ s)
  · exact (privileged_eq_of_mayRun may _).trans (ioCall_eq _ s)

end Sys2Proof.Proofs
end

section
/-! A step of the CPU taken apart (30_encoding.md R80, R314, R340), and the level it runs on (R13, R16). -/

namespace Sys2Proof.Machine

variable {s t u : State}

/-! ### A step of the CPU and the word it executes -/

/-- How a step of the CPU ends after its instruction: the interrupt check, and in STEP the stop. -/
def EndsStep (u t : State) : Prop := t = u.interruptCheck ∨ t = u.interruptCheck.endSingleStep

/-- A step of the CPU keeps the state in STOP, else it ends what the fetch and the instruction made. -/
theorem step_cpu_next (mine : s.cpusTurn) (h : step s = .next t) :
    t = s.turnTaken ∨ ∃ u, fetchExecute s.turnTaken = .next u ∧ EndsStep u t := by
  rw [step_of_cpusTurn mine] at h
  obtain ⟨-, run⟩ | ⟨-, v, single, rfl⟩ | ⟨-, rfl⟩ := cpuTurn_next h
  · obtain ⟨u, ended, rfl⟩ := cpuStep_next run
    exact .inr ⟨u, ended, .inl rfl⟩
  · obtain ⟨u, ended, rfl⟩ := cpuStep_next single
    exact .inr ⟨u, ended, .inr rfl⟩
  · exact .inl rfl

/-- A word executes an instruction that is no EXR, sets Z (EXR of an EXR, R149), or is illegal. -/
theorem executeWord_next {w : Word} (h : executeWord w s = .next t) :
    (∃ j, (∀ sr, j ≠ .exr sr) ∧ exec j s = .next t) ∨ t = (s.setFlag .z true).next ∨
      t = s.illegalInstruction := by
  unfold executeWord at h
  cases decoded : decode w with
  | error e =>
    rw [decoded] at h
    cases h
    exact .inr (.inr rfl)
  | ok i =>
    rw [decoded] at h
    have ran : exec i s = .next t := h
    cases executed : s.executed i with
    | some j =>
      obtain ⟨same, notExr⟩ := exec_of_executed executed
      exact .inl ⟨j, notExr, same ▸ ran⟩
    | none =>
      obtain again | illegal := exec_of_executed_none executed
      · rw [again] at ran
        cases ran
        exact .inr (.inl rfl)
      · rw [illegal] at ran
        cases ran
        exact .inr (.inr rfl)

/-- The interrupt check and the stop write PIL, PVL and the run mode only. -/
theorem EndsStep.onlyParts (h : EndsStep u t) : OnlyParts [.pil, .pvl, .runMode] u t := by
  have check := u.interruptCheck_onlyParts
  obtain rfl | rfl := h
  · exact check.mono (by decide)
  · exact check.trans u.interruptCheck.endSingleStep_onlyParts

theorem EndsStep.banks (h : EndsStep u t) : t.banks = u.banks := by
  have check : u.interruptCheck.banks = u.banks := by
    unfold State.interruptCheck
    split <;> rfl
  obtain rfl | rfl := h
  · exact check
  · unfold State.endSingleStep
    split <;> exact check

/-- An EXR of an EXR writes the register file only. -/
theorem setZ_next_onlyParts (s : State) : OnlyParts [] s (s.setFlag .z true).next := .of_banks _

/-! ### The level is kept up to the interrupt check -/

/-- No instruction writes PIL or PVL (10_state.md R13, R16). -/
theorem partsWritten_level (j : Instr) :
    (partsWritten j).contains .pil = false ∧ (partsWritten j).contains .pvl = false := by
  cases j
  case trr n | mcl n | mst n =>
    delta partsWritten
    dsimp only
    split_ifs <;> exact ⟨rfl, rfl⟩
  all_goals exact ⟨rfl, rfl⟩

/-- Two states run on the same level, with the same level before. -/
def SameLevel (s t : State) : Prop := t.pil = s.pil ∧ t.pvl = s.pvl

theorem OnlyParts.sameLevel {parts : List Part} (o : OnlyParts parts s t) (pil : .pil ∉ parts)
    (pvl : .pvl ∉ parts) : SameLevel s t := ⟨o .pil pil, o .pvl pvl⟩

theorem SameLevel.trans (h : SameLevel s t) (k : SameLevel t u) : SameLevel s u :=
  ⟨k.1.trans h.1, k.2.trans h.2⟩

theorem executeWord_sameLevel {w : Word} (h : executeWord w s = .next t) : SameLevel s t := by
  obtain ⟨j, notExr, ran⟩ | rfl | rfl := executeWord_next h
  · obtain ⟨pil, pvl⟩ := partsWritten_level j
    refine ((exec_conforms s j notExr).of_next ran).framed.onlyParts.sameLevel ?_ ?_
    · simpa using pil
    · simpa using pvl
  · exact (setZ_next_onlyParts s).sameLevel (by decide) (by decide)
  · exact s.illegalInstruction_onlyParts.sameLevel (by decide) (by decide)

theorem fetchExecute_sameLevel (h : fetchExecute s = .next t) : SameLevel s t := by
  obtain ⟨w, u, fetched, executed⟩ | fault := fetchExecute_next h
  · exact ((State.memFetch_ok fetched).onlyParts.sameLevel (by decide) (by decide)).trans
      (executeWord_sameLevel executed)
  · exact (State.memFetch_abandoned fault).onlyParts.sameLevel (by decide) (by decide)

/-- The interrupt check keeps the level, or goes to PK with the interrupt system on (R314, R315). -/
theorem State.interruptCheck_level (u : State) :
    u.interruptCheck = u ∨ (u.interruptCheck = { u with pvl := u.pil, pil := u.pk } ∧ u.ioni = true ∧
      u.pk ≠ u.pil) := by
  by_cases switches : u.ioni = true ∧ u.pk ≠ u.pil
  · exact .inr ⟨State.interruptCheck_switch switches.1 switches.2, switches⟩
  · refine .inl (State.interruptCheck_stay ?_)
    by_cases on : u.ioni = true
    · exact .inr (not_not.mp fun other => switches ⟨on, other⟩)
    · exact .inl (Bool.eq_false_iff.mpr on)

/-- What the end of a step does to the level. -/
theorem EndsStep.level (h : EndsStep u t) :
    SameLevel u t ∨ (t.ioni = true ∧ t.pil ≠ u.pil ∧ t.pil = t.pk ∧ t.pvl = u.pil) := by
  have check : SameLevel u u.interruptCheck ∨ (u.interruptCheck.ioni = true ∧
      u.interruptCheck.pil ≠ u.pil ∧ u.interruptCheck.pil = u.interruptCheck.pk ∧
      u.interruptCheck.pvl = u.pil) := by
    obtain stay | ⟨switch, on, other⟩ := u.interruptCheck_level
    · rw [stay]
      exact .inl ⟨rfl, rfl⟩
    · rw [switch]
      exact .inr ⟨on, other, rfl, rfl⟩
  obtain rfl | rfl := h
  · exact check
  · unfold State.endSingleStep
    split <;> exact check

end Sys2Proof.Machine

namespace Sys2Proof.Proofs

open Sys2Proof.Machine

/-- Settles O23: up to the interrupt check every step keeps the level. -/
theorem levelChangesOnlyBySwitch : Obligations.LevelChangesOnlyBySwitch := by
  intro s t mine h
  obtain rfl | ⟨u, ran, ends⟩ := step_cpu_next mine h
  · exact .inl ⟨rfl, rfl⟩
  · obtain ⟨pil, pvl⟩ := fetchExecute_sameLevel ran
    have level := ends.level
    rwa [SameLevel, pil, pvl] at level

end Sys2Proof.Proofs
end

section
/-! The pending bits that faults set (60_exceptions.md R311, R320): of level 14 alone. -/

namespace Sys2Proof.Machine

variable {s t u : State} {α β : Type}

theorem Access.Reaches.of_ok {x : Access α} {R : State → Prop} {v : α} (h : x.Reaches R)
    (ok : x = .ok v t) : R t := by
  subst ok
  exact h

theorem Access.Reaches.of_abandoned {x : Access α} {R : State → Prop} (h : x.Reaches R)
    (fault : x = .abandoned t) : R t := by
  subst fault
  exact h

/-- The pending bits of every level but 14 stay. -/
def PendingKept (s t : State) : Prop := ∀ n, n ≠ 14 → t.pid.getLsbD n = s.pid.getLsbD n

namespace PendingKept

theorem of_pid (h : t.pid = s.pid) : PendingKept s t := fun n _ => congrArg (BitVec.getLsbD · n) h

theorem trans (h : PendingKept s t) (k : PendingKept t u) : PendingKept s u :=
  fun n other => (k n other).trans (h n other)

theorem andThen {x : Access α} {k : α → State → Result} (access : x.Reaches (PendingKept s))
    (rest : ∀ v t, Ends (k v t) (PendingKept t)) : Ends (x.andThen k) (PendingKept s) :=
  Access.ends_andThen access (fun v t h => (rest v t).mono fun _ r => h.trans r) fun _ h => h

theorem bind {x : Access α} {k : α → State → Access β} (access : x.Reaches (PendingKept s))
    (rest : ∀ v t, (k v t).Reaches (PendingKept t)) : (x.bind k).Reaches (PendingKept s) :=
  Access.post_bind access
    (fun v t h => (rest v t).mono (fun _ _ r => h.trans r) fun _ r => h.trans r) fun _ h => h

end PendingKept

/-! ### Accesses -/

theorem State.raiseInt_pendingKept (s : State) (mask : Word) : PendingKept s (s.raiseInt 14 mask) := by
  intro n other
  by_cases enabled : (s.iid ||| mask) &&& s.iie = 0
  · rw [State.raiseInt_disabled enabled]
  · rw [State.raiseInt, if_pos rfl, if_pos enabled]
    exact getLsbD_setBitTo_ne s.pid 14 n true other

theorem State.mmuFault_pendingKept (s : State) (kind : AccessKind) (c : MmuFault) (t : BitVec 2)
    (vpn : BitVec 6) : PendingKept s (s.mmuFault kind c t vpn) :=
  State.raiseInt_pendingKept { s with pgs := syndrome kind c t vpn } _

theorem State.mark_pid (s : State) (kind : AccessKind) (e : Option (BitVec 2 × BitVec 6)) :
    (s.mark kind e).pid = s.pid := by
  cases e <;> rfl

theorem State.readAt_pendingKept (s : State) (kind : AccessKind) (loc : Location) :
    (s.readAt kind loc).Reaches (PendingKept s) := by
  cases loc with
  | shadow t i view => exact PendingKept.of_pid rfl
  | physical pa e =>
    simp only [State.readAt]
    split
    · exact PendingKept.of_pid (s.mark_pid kind e)
    · trivial
  | fault c t vpn => exact s.mmuFault_pendingKept kind c t vpn

theorem State.writeAt_pendingKept (s : State) (datum : Datum) (loc : Location) :
    (s.writeAt datum loc).Reaches (PendingKept s) := by
  cases loc with
  | shadow t i view => exact PendingKept.of_pid rfl
  | physical pa e =>
    simp only [State.writeAt]
    split
    · exact PendingKept.of_pid (s.mark_pid .write e)
    · trivial
  | fault c t vpn => exact s.mmuFault_pendingKept .write c t vpn

variable (s)

theorem State.memRead_pendingKept (addr : Word) (apt : Bool) :
    (s.memRead addr apt).Reaches (PendingKept s) := s.readAt_pendingKept _ _

theorem State.memWrite_pendingKept (addr : Word) (apt : Bool) (v : Word) :
    (s.memWrite addr apt v).Reaches (PendingKept s) := s.writeAt_pendingKept _ _

theorem State.effectiveAddress_pendingKept (mode : Mode) (disp : BitVec 8) :
    (s.effectiveAddress mode disp).Reaches (PendingKept s) := by
  cases mode <;> simp only [State.effectiveAddress]
  case pRel | bRel | xIdx | bxIdx => exact PendingKept.of_pid rfl
  all_goals exact PendingKept.bind (s.memRead_pendingKept _ _) fun _ _ => PendingKept.of_pid rfl

theorem State.readOperand_pendingKept (mode : Mode) (disp : BitVec 8) :
    (s.readOperand mode disp).Reaches (PendingKept s) :=
  PendingKept.bind (s.effectiveAddress_pendingKept mode disp) fun _ t => t.memRead_pendingKept _ _

theorem State.readFloat_pendingKept (mode : Mode) (disp : BitVec 8) :
    (s.readFloat mode disp).Reaches (PendingKept s) :=
  PendingKept.bind (s.effectiveAddress_pendingKept mode disp) fun _ t =>
    PendingKept.bind (t.memRead_pendingKept _ _) fun _ t =>
      PendingKept.bind (t.memRead_pendingKept _ _) fun _ t =>
        PendingKept.bind (t.memRead_pendingKept _ _) fun _ _ => PendingKept.of_pid rfl

theorem State.memWriteList_pendingKept (apt : Bool) (writes : List (Word × Word)) :
    (s.memWriteList apt writes).Reaches (PendingKept s) := by
  induction writes generalizing s with
  | nil => exact PendingKept.of_pid rfl
  | cons w rest ih => exact PendingKept.bind (s.memWrite_pendingKept w.1 apt w.2) fun _ t => ih t

/-! ### Instructions with accesses -/

theorem State.pid_reportZ (c : Bool) : (s.reportZ c).pid = s.pid := by cases c <;> rfl

theorem State.pid_skipIf (c : Bool) : (s.skipIf c).pid = s.pid := by cases c <;> rfl

theorem storeWords_pendingKept (mode : Mode) (disp : BitVec 8) (words : Word → List (Word × Word)) :
    Ends (storeWords mode disp words s) (PendingKept s) :=
  PendingKept.andThen (s.effectiveAddress_pendingKept mode disp) fun _ t =>
    PendingKept.andThen (t.memWriteList_pendingKept _ _) fun _ _ => PendingKept.of_pid rfl

theorem execMin_pendingKept (mode : Mode) (disp : BitVec 8) :
    Ends (execMin mode disp s) (PendingKept s) :=
  PendingKept.andThen (s.effectiveAddress_pendingKept mode disp) fun _ t =>
    PendingKept.andThen (t.memRead_pendingKept _ _) fun _ t =>
      PendingKept.andThen (t.memWrite_pendingKept _ _ _) fun _ t => PendingKept.of_pid (t.pid_skipIf _)

theorem execLdd_pendingKept (mode : Mode) (disp : BitVec 8) :
    Ends (execLdd mode disp s) (PendingKept s) :=
  PendingKept.andThen (s.effectiveAddress_pendingKept mode disp) fun _ t =>
    PendingKept.andThen (t.memRead_pendingKept _ _) fun v u =>
      PendingKept.andThen ((u.setCur .a v).memRead_pendingKept _ _) fun _ _ => PendingKept.of_pid rfl

theorem execLdf_pendingKept (mode : Mode) (disp : BitVec 8) :
    Ends (execLdf mode disp s) (PendingKept s) :=
  PendingKept.andThen (s.effectiveAddress_pendingKept mode disp) fun _ t =>
    PendingKept.andThen (t.memRead_pendingKept _ _) fun x u =>
      PendingKept.andThen ((u.setCur .t x).memRead_pendingKept _ _) fun y w =>
        PendingKept.andThen ((w.setCur .a y).memRead_pendingKept _ _) fun _ _ => PendingKept.of_pid rfl

/-- FAD, FSB and FMU: a result made of the accumulator and the operand read. -/
theorem floatOperation_pendingKept (f : Flt → State → Flt × FloatReport) (mode : Mode)
    (disp : BitVec 8) :
    Ends ((s.readFloat mode disp).andThen fun b t => .next (t.floatResult (f b t)).next)
      (PendingKept s) :=
  PendingKept.andThen (s.readFloat_pendingKept mode disp) fun _ _ =>
    PendingKept.of_pid (State.pid_reportZ _ _)

theorem execFdv_pendingKept (mode : Mode) (disp : BitVec 8) :
    Ends (execFdv mode disp s) (PendingKept s) :=
  PendingKept.andThen (s.readFloat_pendingKept mode disp) fun _ _ => by
    split
    · exact PendingKept.of_pid rfl
    · exact PendingKept.of_pid (State.pid_reportZ _ _)

theorem execTset_pendingKept : Ends (execTset s) (PendingKept s) :=
  PendingKept.andThen (s.memRead_pendingKept _ _) fun v t =>
    PendingKept.andThen ((t.setCur .t v).memWrite_pendingKept _ _ _) fun _ _ => PendingKept.of_pid rfl

/-- A fault of an access raises an internal cause, which is level 14's. -/
theorem exec_pendingKept {j : Instr} (accesses : (storesTranslated j || readsTranslated j) = true)
    (unprivileged : privilegedInstr j = false) : Ends (exec j s) (PendingKept s) := by
  have operand {k : Word → State → State} (mode : Mode) (disp : BitVec 8)
      (same : ∀ m t, (k m t).pid = t.pid) :
      Ends ((s.readOperand mode disp).andThen fun m t => .next (k m t)) (PendingKept s) :=
    PendingKept.andThen (s.readOperand_pendingKept mode disp) fun m t => PendingKept.of_pid (same m t)
  have float (f : Flt → State → Flt × FloatReport) := floatOperation_pendingKept s f
  cases j
  case stz mode disp => exact exec_stz mode disp s ▸ storeWords_pendingKept s mode disp _
  case sta mode disp => exact exec_sta mode disp s ▸ storeWords_pendingKept s mode disp _
  case stt mode disp => exact exec_stt mode disp s ▸ storeWords_pendingKept s mode disp _
  case stx mode disp => exact exec_stx mode disp s ▸ storeWords_pendingKept s mode disp _
  case std mode disp => exact exec_std mode disp s ▸ storeWords_pendingKept s mode disp _
  case stf mode disp => exact exec_stf mode disp s ▸ storeWords_pendingKept s mode disp _
  case min mode disp => exact execMin_pendingKept s mode disp
  case tset => exact execTset_pendingKept s
  case sbyt => exact PendingKept.andThen (s.writeAt_pendingKept _ _) fun _ _ => PendingKept.of_pid rfl
  case lda mode disp | ldt mode disp | ldx mode disp | add mode disp | sub mode disp | and mode disp
    | ora mode disp | mpy mode disp => exact operand mode disp fun _ _ => rfl
  case ldd mode disp => exact execLdd_pendingKept s mode disp
  case ldf mode disp => exact execLdf_pendingKept s mode disp
  case fad mode disp => exact float (fun b t => fadd t.floatAccumulator b) mode disp
  case fsb mode disp => exact float (fun b t => fadd t.floatAccumulator b.negate) mode disp
  case fmu mode disp => exact float (fun b t => fmul t.floatAccumulator b) mode disp
  case fdv mode disp => exact execFdv_pendingKept s mode disp
  case jmp mode disp | jpl mode disp =>
    exact PendingKept.andThen (s.effectiveAddress_pendingKept mode disp) fun _ _ =>
      PendingKept.of_pid rfl
  case lbyt | rdus =>
    exact PendingKept.andThen (s.memRead_pendingKept _ _) fun _ _ => PendingKept.of_pid rfl
  case srb | lrb => cases unprivileged
  all_goals exact absurd accesses Bool.false_ne_true

end Sys2Proof.Machine
end

section
/-! What a step on an unprivileged level leaves unchanged (60_exceptions.md R330). -/

namespace Sys2Proof.Machine

variable {s t u : State}

theorem State.bank_congr (h : t.banks = s.banks) (l : Level) : t.bank l = s.bank l := by
  unfold State.bank
  simp only [h]

/-- The parts of the state that an unprivileged level never changes (R330). -/
def protectedParts : List Part := [.ioni, .poni, .sexi, .pie, .iie, .pcr, .identChain]

/-- An instruction that writes no other level, no protected part, and PID by the faults of its accesses
only. -/
structure Ordinary (j : Instr) : Prop where
  unprivileged : privilegedInstr j = false
  otherLevel : otherLevel j = none
  protects : (protectedParts.all fun part => !(partsWritten j).contains part) = true
  pid : (partsWritten j).contains .pid = (storesTranslated j || readsTranslated j)

/-- Every instruction is privileged, or MON, or ordinary. -/
theorem privileged_or_mon_or_ordinary (j : Instr) :
    privilegedInstr j = true ∨ (∃ n, j = .mon n) ∨ Ordinary j := by
  cases j
  case tra | trr | mcl | mst | iof | ion | pof | pon | piof | pion | sex | rex | wait | identPL10 |
      identPL11 | identPL12 | identPL13 | irr | irw | lrb | srb | iox | ioxt | exam | depo | ldatx |
      ldxtx | lddtx | statx | stztx | stdtx | opcom => exact .inl rfl
  case mon n => exact .inr (.inl ⟨n, rfl⟩)
  all_goals exact .inr (.inr ⟨rfl, rfl, rfl, rfl⟩)

/-- What R330 lets an unprivileged level do: on other levels T of level 14 only, in PID the bit of level
14 only, in the page tables marker bits only. -/
structure Confined (s t : State) : Prop where
  parts : ∀ part ∈ protectedParts, part.same s t
  pending : PendingKept s t
  reg : ∀ l r, l ≠ s.pil → ¬(l = 14 ∧ r = .t) → t.reg l r = s.reg l r
  flags : ∀ l, l ≠ s.pil → t.flags l = s.flags l
  tables : Marked s t

namespace Confined

theorem trans (h : Confined s t) (pil : t.pil = s.pil) (k : Confined t u) : Confined s u where
  parts part m := Part.same_trans (h.parts part m) (k.parts part m)
  pending := h.pending.trans k.pending
  reg l r other notT := (k.reg l r (pil ▸ other) notT).trans (h.reg l r other notT)
  flags l other := (k.flags l (pil ▸ other)).trans (h.flags l other)
  tables := h.tables.trans k.tables

/-- A change within a frame that has no other level and no protected part. -/
theorem of_framed {D : List Reg} {F : List Flag} {P : List Part} (f : Framed D F [] P s t)
    (apart : ∀ part ∈ protectedParts, part ∉ P) (pending : PendingKept s t) (tables : Marked s t) :
    Confined s t where
  parts part m := f.onlyParts part (apart part m)
  pending := pending
  reg l r other _ := congrArg (Bank.get · r) (f.registers.bank l other List.not_mem_nil)
  flags l other := congrArg Bank.flags (f.registers.bank l other List.not_mem_nil)
  tables := tables

/-- A cause raised on the way. -/
theorem of_cause (s : State) (c : Cause) : Confined s (s.raiseCause c) :=
  of_framed (D := []) (F := []) (.of_cause c (List.Subset.refl _)) (by decide)
    (s.raiseInt_pendingKept _) (.of_pt (s.raiseInt_onlyParts 14 _ .pageTables (by decide)))

/-- A register written that the level may write: its own, or T of level 14 (MON, 46_system.md R269). -/
theorem setReg (h : Confined s t) {l : Level} {r : Reg} (may : l = s.pil ∨ (l = 14 ∧ r = .t))
    (v : Word) : Confined s (t.setReg l r v) where
  parts part m := Part.same_trans (h.parts part m) (OnlyParts.of_banks _ part List.not_mem_nil)
  pending := h.pending
  reg m q other notT := by
    have apart : ¬(m = l ∧ q = r) := by
      rintro ⟨rfl, rfl⟩
      exact may.elim other notT
    rw [State.reg_setReg, if_neg apart, h.reg m q other notT]
  flags m other := by rw [State.flags_setReg, h.flags m other]
  tables := h.tables

/-- The end of the step writes PIL, PVL and the run mode only. -/
theorem endsStep (h : Confined s u) (ends : EndsStep u t) : Confined s t where
  parts part m := Part.same_trans (h.parts part m) (ends.onlyParts part (by revert part; decide))
  pending := h.pending.trans (.of_pid (ends.onlyParts .pid (by decide)))
  reg l r other notT :=
    (congrArg (Bank.get · r) (State.bank_congr ends.banks l)).trans (h.reg l r other notT)
  flags l other := (congrArg Bank.flags (State.bank_congr ends.banks l)).trans (h.flags l other)
  tables := h.tables.trans (.of_pt (ends.onlyParts .pageTables (by decide)))

end Confined

/-! ### Each instruction -/

theorem State.unprivileged.windowHidden (low : s.unprivileged) : s.windowHidden := by
  refine ⟨low.1, fun ring => ?_⟩
  have below := low.2
  rw [ring] at below
  exact absurd below (by decide)

theorem exec_confined_of_ordinary {j : Instr} (ordinary : Ordinary j) (notExr : ∀ sr, j ≠ .exr sr)
    (low : s.unprivileged) (h : exec j s = .next t) : Confined s t := by
  obtain ⟨unprivileged, alone, protects, pid⟩ := ordinary
  have framed := ((exec_conforms s j notExr).of_next h).framed
  rw [alone] at framed
  refine .of_framed framed (fun part m => ?apart) ?pending
    ((exec_marked notExr (.inr low.windowHidden)).of_next h)
  case apart => simpa using List.all_eq_true.mp protects part m
  case pending =>
    cases accesses : storesTranslated j || readsTranslated j
    · refine .of_pid (framed.onlyParts .pid ?_)
      rw [accesses] at pid
      simpa using pid
    · exact (exec_pendingKept s accesses unprivileged).of_next h

/-- MON raises its cause, writes T of level 14 and goes on (46_system.md R269). -/
theorem exec_mon_confined (n : BitVec 8) (h : exec (.mon n) s = .next t) : Confined s t := by
  rw [exec_mon] at h
  cases h
  exact ((Confined.of_cause s .monitorCall).setReg (.inr ⟨rfl, rfl⟩) _).setReg
    (.inl (s.pil_raiseInt 14 0o2)) _

theorem exec_confined {j : Instr} (notExr : ∀ sr, j ≠ .exr sr) (low : s.unprivileged)
    (h : exec j s = .next t) : Confined s t := by
  obtain isPrivileged | ⟨n, rfl⟩ | ordinary := privileged_or_mon_or_ordinary j
  · rw [exec_of_privilegedInstr isPrivileged low] at h
    cases h
    exact .of_cause s _
  · exact exec_mon_confined n h
  · exact exec_confined_of_ordinary ordinary notExr low h

theorem executeWord_confined {w : Word} (low : s.unprivileged) (h : executeWord w s = .next t) :
    Confined s t := by
  obtain ⟨j, notExr, ran⟩ | rfl | rfl := executeWord_next h
  · exact exec_confined notExr low ran
  · exact .of_framed (D := []) (F := [.z]) (P := [])
      (Framed.refl.setFlag .z true (by decide)).next (by decide) (.of_pid rfl) (.of_pt rfl)
  · exact .of_cause s _

/-! ### The step -/

/-- A fetch by an unprivileged level, completed or faulted. -/
theorem State.memFetch_confined (s : State) (addr : Word) : (s.memFetch addr).Reaches (Confined s) := by
  have pending : (s.memFetch addr).Reaches (PendingKept s) := s.readAt_pendingKept _ _
  have tables : (s.memFetch addr).Reaches (Marked s) := s.readAt_marked _ _
  have frame : (s.memFetch addr).Reaches (Framed [] [] [] readParts s) :=
    (s.memFetch_post addr).mono (fun _ _ h => .of_read h (List.Subset.refl _))
      fun _ h => .of_fault h (List.Subset.refl _)
  cases fetched : s.memFetch addr with
  | ok w t =>
    exact .of_framed (frame.of_ok fetched) (by decide) (pending.of_ok fetched) (tables.of_ok fetched)
  | abandoned t =>
    exact .of_framed (frame.of_abandoned fetched) (by decide) (pending.of_abandoned fetched)
      (tables.of_abandoned fetched)
  | refused r => trivial

/-- A completed fetch leaves the level unprivileged (R330). -/
theorem ReadStep.unprivileged (step : ReadStep s t) (low : s.unprivileged) : t.unprivileged := by
  obtain ⟨_, rfl⟩ := step
  exact low

theorem ReadStep.pil (step : ReadStep s t) : t.pil = s.pil := by
  obtain ⟨_, rfl⟩ := step
  rfl

theorem fetchExecute_confined (low : s.unprivileged) (h : fetchExecute s = .next t) : Confined s t := by
  have fetch := s.memFetch_confined (s.cur .p)
  obtain ⟨w, u, fetched, executed⟩ | fault := fetchExecute_next h
  · have step := State.memFetch_ok fetched
    exact (fetch.of_ok fetched).trans step.pil (executeWord_confined (step.unprivileged low) executed)
  · exact fetch.of_abandoned fault

theorem step_confined (mine : s.cpusTurn) (low : s.unprivileged) (h : step s = .next t) :
    Confined s.turnTaken t := by
  obtain rfl | ⟨u, ran, ends⟩ := step_cpu_next mine h
  · exact .of_framed (D := []) (F := []) (P := []) .refl (by decide) (.of_pid rfl) (.of_pt rfl)
  · exact (fetchExecute_confined (s := s.turnTaken) low ran).endsStep ends

end Sys2Proof.Machine

namespace Sys2Proof.Proofs

open Sys2Proof.Machine

/-- Settles O59: fetch, instruction and the end of the step are each confined. -/
theorem unprivilegedStepIsConfined : Obligations.UnprivilegedStepIsConfined := by
  intro s t mine low h
  obtain ⟨parts, pending, reg, flags, tables⟩ := step_confined mine low h
  exact ⟨⟨parts .ioni (by decide), parts .poni (by decide), parts .sexi (by decide)⟩,
    ⟨parts .pie (by decide), parts .iie (by decide), parts .pcr (by decide),
      parts .identChain (by decide)⟩, pending, reg, flags, tables⟩

end Sys2Proof.Proofs
end

section
/-! The bytes that an unprivileged level may write (60_exceptions.md R330, 20_memory.md R52). -/

namespace Sys2Proof.Machine

open Sys2Proof.Claims

variable {s t u : State} {a : Nat}

/-! ### The pages a level may write -/

/-- A byte of a page that an entry of one of the level's two tables lets its ring write. -/
def State.mayWriteByte (s : State) (a : Nat) : Prop :=
  ∃ (apt : Bool) (v : BitVec 6), writableEntry s (s.pte (s.selectTable apt) v) ∧
    a / 2048 = (s.pageNumber (s.pte (s.selectTable apt) v)).toNat

theorem State.pageNumber_of_marked {old new : Pte} (entry : markedFrom old new) (s : State) :
    s.pageNumber new = s.pageNumber old := by
  have wide := entry.extractLsb' (lo := 0) (n := 14) (by decide)
  have narrow := entry.extractLsb' (lo := 0) (n := 9) (by decide)
  simp only [State.pageNumber, wide, narrow]

/-- Marker bits give no level a page it could not write before (R55). -/
theorem State.mayWriteByte_of_marked (step : WriteStep s t) (marked : Marked s t)
    (h : t.mayWriteByte a) : s.mayWriteByte a := by
  obtain ⟨apt, v, ⟨permit, ring⟩, page⟩ := h
  obtain ⟨pt, m, rfl⟩ := step
  have entry := marked (s.selectTable apt) v
  have samePermit := entry.getLsbD (j := 31) (by decide)
  have sameRing := entry.extractLsb' (lo := 24) (n := 2) (by decide)
  have samePage := State.pageNumber_of_marked entry s
  exact ⟨apt, v, ⟨samePermit ▸ permit, sameRing ▸ ring⟩,
    page.trans (congrArg BitVec.toNat samePage)⟩

/-! ### The bytes a translated write stores to -/

/-- A translation that completes has passed the checks of R52. -/
theorem State.translate_eq_physical {kind : AccessKind} {addr : Word} {apt : Bool} {pa : PhysAddr}
    {entry : Option (BitVec 2 × BitVec 6)} (h : s.translate kind addr apt = .physical pa entry) :
    (s.entryFor addr apt).getLsbD (permitBit kind) = true ∧
    ¬ s.ring < (s.entryFor addr apt).extractLsb' 24 2 ∧
    pa = s.pageNumber (s.entryFor addr apt) ++ addr.extractLsb' 0 10 := by
  unfold State.translate at h
  dsimp only at h
  split_ifs at h with noPermit above denied
  cases h
  exact ⟨Bool.not_eq_false _ ▸ denied, above, rfl⟩

/-- A byte a datum is stored to is one of the two of its physical word (R41, R58). -/
theorem Datum.div_two_of_mem_bytes {datum : Datum} {pa : PhysAddr} (h : a ∈ datum.bytes pa) :
    a / 2 = pa.toNat := by
  cases datum with
  | word v =>
    simp only [Datum.bytes, wordBytes, highByteAddr, lowByteAddr, List.mem_cons, List.not_mem_nil,
      or_false] at h
    omega
  | byte sel v =>
    simp only [Datum.bytes, selectedByte, highByteAddr, lowByteAddr, List.mem_singleton] at h
    split at h <;> omega

/-- A page has 1024 words. -/
theorem toNat_append_div_page (page : BitVec 14) (offset : BitVec 10) :
    (page ++ offset).toNat / 1024 = page.toNat := by
  have below := offset.isLt
  rw [BitVec.toNat_append, ← Nat.shiftLeft_add_eq_or_of_lt below, Nat.shiftLeft_eq]
  omega

/-- On an unprivileged level every write is translated, and its page is one the level may write. -/
theorem State.mayWriteByte_of_mem_bytes {datum : Datum} {addr : Word} {apt : Bool} (low : s.unprivileged)
    (h : a ∈ (s.locate .write addr apt).bytes datum) : s.mayWriteByte a := by
  have hidden := low.windowHidden
  rw [State.locate_translated hidden.1 (.inr hidden.2)] at h
  cases place : s.translate .write addr apt with
  | physical pa entry =>
    rw [place] at h
    obtain ⟨permit, within, rfl⟩ := State.translate_eq_physical place
    refine ⟨apt, addr.extractLsb' 10 6, ⟨permit, BitVec.le_def.mp (BitVec.not_lt.mp within)⟩, ?_⟩
    have word : a / 2 = _ := Datum.div_two_of_mem_bytes h
    have page := toNat_append_div_page (s.pageNumber (s.entryFor addr apt)) (addr.extractLsb' 0 10)
    rw [← word] at page
    rw [← State.entryFor, ← page]
    omega
  | shadow _ _ _ | fault _ _ _ =>
    rw [place] at h
    cases h

theorem State.mayWriteByte_of_mem_bytesAt {addr : Word} {apt : Bool} (low : s.unprivileged)
    (h : a ∈ s.bytesAt addr apt) : s.mayWriteByte a :=
  State.mayWriteByte_of_mem_bytes low (s.bytesAt_eq addr apt 0 ▸ h)

theorem WriteStep.unprivileged (step : WriteStep s t) (low : s.unprivileged) : t.unprivileged := by
  obtain ⟨_, _, rfl⟩ := step
  exact low

/-- Words written in order: the later ones under the marker bits of the earlier. -/
theorem State.mayWriteByte_of_mem_bytesOf {apt : Bool} (writes : List (Word × Word))
    (low : s.unprivileged) (h : a ∈ s.bytesOf apt writes) : s.mayWriteByte a := by
  induction writes generalizing s with
  | nil => cases h
  | cons w rest ih =>
    obtain ⟨addr, v⟩ := w
    obtain first | later := List.mem_append.mp h
    · exact State.mayWriteByte_of_mem_bytesAt low first
    · cases written : s.memWrite addr apt v with
      | ok _ t =>
        rw [written] at later
        have step := State.memWrite_ok written
        have stores := (s.memWrite_stores addr apt v).of_ok written
        exact State.mayWriteByte_of_marked step (stores.tables low.windowHidden)
          (ih (step.unprivileged low) later)
      | abandoned _ | refused _ =>
        rw [written] at later
        cases later

/-- Reads before a write set marker bits only. -/
theorem State.mayWriteByte_of_read (step : ReadStep s t) (marked : Marked s t) (low : s.unprivileged)
    {apt : Bool} {writes : List (Word × Word)} (h : a ∈ t.bytesOf apt writes) : s.mayWriteByte a :=
  State.mayWriteByte_of_marked step.toWrite marked
    (State.mayWriteByte_of_mem_bytesOf writes (step.unprivileged low) h)

theorem State.mayWriteByte_of_mem_bytesAtOperand {mode : Mode} {disp : BitVec 8}
    {words : Word → List (Word × Word)} (low : s.unprivileged)
    (h : a ∈ s.bytesAtOperand mode disp words) : s.mayWriteByte a := by
  unfold State.bytesAtOperand at h
  cases found : s.effectiveAddress mode disp with
  | ok ea t =>
    rw [found] at h
    exact State.mayWriteByte_of_read (State.effectiveAddress_ok found)
      ((s.effectiveAddress_marked mode disp).of_ok found) low h
  | abandoned _ | refused _ =>
    rw [found] at h
    cases h

/-- MIN stores where it read (40_memory_reference.md R115). -/
theorem storedBytes_min_mayWrite {mode : Mode} {disp : BitVec 8} (low : s.unprivileged)
    (h : a ∈ storedBytes s (.min mode disp)) : s.mayWriteByte a := by
  delta storedBytes at h
  dsimp only at h
  cases found : s.effectiveAddress mode disp with
  | ok ea t =>
    rw [found] at h
    dsimp only at h
    have step := State.effectiveAddress_ok found
    cases read : t.memRead ea.1 ea.2 with
    | ok v u =>
      rw [read] at h
      exact State.mayWriteByte_of_marked step.toWrite
        ((s.effectiveAddress_marked mode disp).of_ok found)
        (State.mayWriteByte_of_read (State.memRead_ok read) ((t.memRead_marked _ _).of_ok read)
          (step.unprivileged low) h)
    | abandoned _ | refused _ =>
      rw [read] at h
      cases h
  | abandoned _ | refused _ =>
    rw [found] at h
    cases h

/-- TSET stores where it read (44_muldiv_byte.md R210). -/
theorem storedBytes_tset_mayWrite (low : s.unprivileged) (h : a ∈ storedBytes s .tset) :
    s.mayWriteByte a := by
  delta storedBytes at h
  dsimp only at h
  cases read : s.memRead (s.cur .x) true with
  | ok v t =>
    rw [read] at h
    exact State.mayWriteByte_of_read (State.memRead_ok read) ((s.memRead_marked _ _).of_ok read) low h
  | abandoned _ | refused _ =>
    rw [read] at h
    cases h

theorem storedBytes_sbyt (s : State) : storedBytes s .sbyt =
    (s.locate .write s.byteStringAddress true).bytes
      (.byte ((s.cur .x).getLsbD 0) ((s.cur .a).extractLsb' 0 8)) := by
  delta storedBytes
  cases s.locate .write s.byteStringAddress true <;> rfl

/-- Every byte an instruction stores to on an unprivileged level is one the level may write. -/
theorem storedBytes_mayWrite {j : Instr} (unprivileged : privilegedInstr j = false)
    (low : s.unprivileged) (h : a ∈ storedBytes s j) : s.mayWriteByte a := by
  cases j
  case stz | sta | stt | stx | std | stf =>
    delta storedBytes at h
    exact State.mayWriteByte_of_mem_bytesAtOperand low h
  case min => exact storedBytes_min_mayWrite low h
  case tset => exact storedBytes_tset_mayWrite low h
  case sbyt =>
    rw [storedBytes_sbyt] at h
    exact State.mayWriteByte_of_mem_bytes low h
  case srb | depo | statx | stztx | stdtx => cases unprivileged
  all_goals exact absurd h List.not_mem_nil

/-! ### The step -/

/-- Every byte of memory that changed is one the level may write. -/
def StoresAllowed (s t : State) : Prop := ∀ a, t.mem.readByte a ≠ s.mem.readByte a → s.mayWriteByte a

theorem StoresAllowed.of_mem (h : t.mem = s.mem) : StoresAllowed s t :=
  fun _ changed => absurd (by rw [h]) changed

theorem executeWord_storesAllowed {w : Word} (low : s.unprivileged) (h : executeWord w s = .next t) :
    StoresAllowed s t := by
  obtain ⟨j, notExr, ran⟩ | rfl | rfl := executeWord_next h
  · cases isPrivileged : privilegedInstr j with
    | true =>
      rw [exec_of_privilegedInstr isPrivileged low] at ran
      cases ran
      exact .of_mem (s.raiseInt_onlyParts 14 _ .memory (by decide))
    | false =>
      intro a changed
      refine storedBytes_mayWrite isPrivileged low (Decidable.by_contra fun outside => changed ?_)
      exact (exec_sameBytes notExr).of_next ran a outside
  · exact .of_mem rfl
  · exact .of_mem (s.illegalInstruction_onlyParts .memory (by decide))

theorem fetchExecute_storesAllowed (low : s.unprivileged) (h : fetchExecute s = .next t) :
    StoresAllowed s t := by
  obtain ⟨w, u, fetched, executed⟩ | fault := fetchExecute_next h
  · intro a changed
    have step := State.memFetch_ok fetched
    have tables := ((s.memFetch_confined _).of_ok fetched).tables
    exact State.mayWriteByte_of_marked step.toWrite tables
      (executeWord_storesAllowed (step.unprivileged low) executed a (step.mem ▸ changed))
  · exact .of_mem (State.memFetch_abandoned fault).mem

end Sys2Proof.Machine

namespace Sys2Proof.Proofs

open Sys2Proof.Machine

/-- Settles O60: the fetch and the end of the step leave memory, and the instruction stores to the bytes
of pages it may write. -/
theorem unprivilegedStoresStayInWritablePages : Obligations.UnprivilegedStoresStayInWritablePages := by
  intro s t a mine low h changed
  obtain rfl | ⟨u, ran, ends⟩ := step_cpu_next mine h
  · exact absurd rfl changed
  · have sameMem : t.mem = u.mem := ends.onlyParts .memory (by decide)
    exact fetchExecute_storesAllowed (s := s.turnTaken) low ran a (sameMem ▸ changed)

end Sys2Proof.Proofs
end

section
/-! The state after reset, through the accessors (70_reset_and_hazards.md R350). -/

namespace Sys2Proof.Machine

@[simp] theorem State.bank_reset (l : Level) : State.reset.bank l = Bank.reset := by
  simp [State.bank, State.reset]

@[simp] theorem Bank.get_reset (r : Reg) : Bank.reset.get r = 0 := by
  cases r <;> rfl

theorem Bank.scratch_reset (n : Fin 8) : Bank.reset.scratch[n] = 0 := by
  simp [Bank.reset]

@[simp] theorem State.reg_reset (l : Level) (r : Reg) : State.reset.reg l r = 0 := by
  simp [State.reg]

@[simp] theorem State.flags_reset (l : Level) : State.reset.flags l = 0 := by
  rw [State.flags, State.bank_reset]
  rfl

/-- Bit 12 of STS is the only bit that reset leaves 1 (10_state.md R13). -/
@[simp] theorem State.sts_reset (l : Level) : State.reset.sts l = 0o010000 := by
  rw [State.sts, State.flags_reset]
  rfl

@[simp] theorem State.pk_reset : State.reset.pk = 0 := by
  have noneRequested : State.reset.pid &&& State.reset.pie = 0 := rfl
  rw [State.pk, noneRequested, highestBit_zero]

@[simp] theorem State.pte_reset (t : BitVec 2) (i : BitVec 6) : State.reset.pte t i = 0 := by
  simp [State.pte, State.reset]

@[simp] theorem State.pcrOf_reset (l : Level) : State.reset.pcrOf l = 0 := by
  simp [State.pcrOf, State.reset]

end Sys2Proof.Machine

/-! The statement of 70_reset_and_hazards.md. -/

namespace Sys2Proof.Proofs

open Sys2Proof.Machine

/-- Settles O6: what is kept per level or per page is read through its accessor; the other values are
fields of the reset state, except PK, the highest pending and enabled level, which is 0 as PID and PIE are. -/
theorem resetValues : Obligations.ResetValues := by
  refine ⟨State.reg_reset, fun l n => ?_, State.flags_reset, State.sts_reset, rfl, rfl, rfl, rfl, rfl,
    rfl, rfl, rfl, State.pk_reset, rfl, rfl, State.pte_reset, State.pcrOf_reset, rfl, rfl, rfl⟩
  rw [State.bank_reset]
  exact Bank.scratch_reset n

end Sys2Proof.Proofs
end

section
/-! The encoder in the words of 30_encoding.md R83: the word of each format as the rules write it, and
what the decoder makes of it. -/

namespace Sys2Proof

open Sys2Proof.Claims

/-! ### The formats -/

/-- Two fields of three bits joined one by one or together. -/
theorem append_registers (high : BitVec 10) (sr dr : BitVec 3) : high ++ sr ++ dr = high ++ (sr ++ dr) :=
  BitVec.append_assoc.trans (BitVec.cast_eq rfl _)

theorem encMR_eq_mrWord (op : BitVec 5) (mode : Mode) (disp : BitVec 8) :
    encMR op mode disp = mrWord (op ++ 0#11) mode disp :=
  (BitVec.append_assoc.trans (BitVec.cast_eq rfl _)).trans (mrWord_eq_append op mode disp).symm

theorem encCJ_eq_lowWord (condition : BitVec 3) (disp : BitVec 8) :
    encCJ condition disp = lowWord (0b10110#5 ++ condition ++ 0#8) disp :=
  (lowWord_eq_append _ disp).symm

theorem encAR_eq_lowWord (function : BitVec 3) (arg : BitVec 8) :
    encAR function arg = lowWord (0b11110#5 ++ function ++ 0#8) arg :=
  (lowWord_eq_append _ arg).symm

theorem encM8_eq_lowWord (function : BitVec 3) (n : BitVec 8) :
    encM8 function n = lowWord (0b11010#5 ++ function ++ 0#8) n :=
  (lowWord_eq_append _ n).symm

theorem encSK_eq_regsWord (condition : BitVec 3) (sr dr : RegField) :
    encSK condition sr dr = regsWord (0b11000#5 ++ condition ++ 0#2 ++ 0#6) sr dr :=
  (append_registers _ _ _).trans (regsWord_eq_append _ sr dr).symm

theorem encXR_eq_regsWord (row : BitVec 5) (sr dr : RegField) :
    encXR row (codeOfReg sr) (codeOfReg dr) = regsWord (0b11000#5 ++ row ++ 0#6) sr dr :=
  (append_registers _ _ _).trans (regsWord_eq_append _ sr dr).symm

/-- The word of an instruction that ignores its destination field has 0 there (R92). -/
theorem encXR_zero_eq_regsWord (row : BitVec 5) (sr : RegField) :
    encXR row (codeOfReg sr) 0 =
      regsWord (0b11000#5 ++ row ++ 0#6) sr none ||| (0#3).zeroExtend 16 :=
  (encXR_eq_regsWord row sr none).trans BitVec.or_zero.symm

theorem encRO_eq_roWord (rad : Bool) (f : BitVec 2) (cm1 cld : Bool) (sr dr : RegField) :
    encRO rad f cm1 cld sr dr =
      roWord (0b11001#5 ++ (BitVec.ofBool rad ++ f) ++ 0#8) cm1 cld sr dr := by
  have high : ∀ (rad : Bool) (f : BitVec 2) (cm1 cld : Bool),
      0b11001#5 ++ BitVec.ofBool rad ++ f ++ BitVec.ofBool cm1 ++ BitVec.ofBool cld =
        0b11001#5 ++ (BitVec.ofBool rad ++ f) ++ (BitVec.ofBool cm1 ++ BitVec.ofBool cld) := by
    decide
  rw [roWord_eq_append, ← high]
  exact append_registers _ _ _

theorem encM4_eq_or (k : BitVec 2) (n : BitVec 4) :
    encM4 k n = (0b11010#5 ++ 0#3 ++ k ++ 0#2 ++ 0#4) ||| n.zeroExtend 16 :=
  (append_zero_or_zeroExtend _ n).symm

theorem encML_eq_mlWord (row : BitVec 4) (level : Level) (reg : BitVec 3) :
    encML row level reg = mlWord (0b11010#5 ++ row ++ 0#7) level reg :=
  (BitVec.append_assoc.trans (BitVec.cast_eq rfl _)).trans
    (append_zero_or_zeroExtend (0b11010#5 ++ row) (level ++ reg)).symm

theorem encSH_eq_or (type : ShiftType) (reg : BitVec 2) (n : Int) :
    encSH type reg n = (0b11011#5 ++ 0#2 ++ reg ++ 0#7 : Word) |||
      (bitsOfShiftType type ++ 0#3 ++ BitVec.ofInt 6 n).zeroExtend 16 :=
  (shiftWord_eq_append _ reg _).symm

theorem encBO_eq_boWord (function : BitVec 4) (bn : Nat) (dr : RegField) :
    encBO function bn dr = boWord (0b11111#5 ++ function ++ 0#7) (BitVec.ofNat 4 bn) dr :=
  (BitVec.append_assoc.trans (BitVec.cast_eq rfl _)).trans (boWord_eq_append _ _ dr).symm

/-! ### The operands held as numbers (R85) -/

/-- A shift count that fits its field is read back from it. -/
theorem toInt_ofInt_of_countFits {n : Int} (fits : countFits n = true) :
    (BitVec.ofInt 6 n).toInt = n := by
  simp only [countFits, Bool.and_eq_true, decide_eq_true_eq] at fits
  exact BitVec.toInt_ofInt_eq_self (by decide) fits.1 (Int.lt_add_one_of_le fits.2)

/-- A scaling factor that fits its field is read back from it. -/
theorem toInt_ofInt_of_scaleFits {n : Int} (fits : scaleFits n = true) :
    (BitVec.ofInt 8 n).toInt = n := by
  simp only [scaleFits, Bool.and_eq_true, decide_eq_true_eq] at fits
  exact BitVec.toInt_ofInt_eq_self (by decide) fits.1 (Int.lt_add_one_of_le fits.2)

/-- A bit number that fits its field is read back from it. -/
theorem toNat_ofNat_of_bitFits {bn : Nat} (fits : bitFits bn = true) :
    (BitVec.ofNat 4 bn).toNat = bn :=
  (BitVec.toNat_ofNat bn 4).trans (Nat.mod_eq_of_lt (of_decide_eq_true fits))

/-! ### The decoder on each format -/

theorem decode_encMR {op : BitVec 5} {i : Mode → BitVec 8 → Instr}
    (row : ∀ w, decodeMemory w op = some (i (modeField w) (lowByte w))) (mode : Mode) (disp : BitVec 8) :
    decode (encMR op mode disp) = .ok (i mode disp) := by
  rw [encMR_eq_mrWord, decode_mrWord row]

theorem decode_encCJ (condition : BitVec 3) (disp : BitVec 8) :
    decode (encCJ condition disp) = .ok (conditionalJump condition disp) := by
  rw [encCJ_eq_lowWord, decode_conditionalJump]

theorem decode_encAR (function : BitVec 3) (arg : BitVec 8) :
    decode (encAR function arg) = .ok (argumentInstruction function arg) := by
  rw [encAR_eq_lowWord, decode_argument]

theorem decode_encSK (condition : BitVec 3) (sr dr : RegField) :
    decode (encSK condition sr dr) = .ok (skipInstruction condition sr dr) := by
  rw [encSK_eq_regsWord, decode_skip]

theorem decode_encRO (rad : Bool) (f : BitVec 2) (cm1 cld : Bool) (sr dr : RegField) :
    decode (encRO rad f cm1 cld sr dr) =
      .ok (registerOperation (BitVec.ofBool rad ++ f) cm1 cld sr dr) := by
  rw [encRO_eq_roWord, decode_registerOperation]

theorem decode_encBO (function : BitVec 4) {bn : Nat} (dr : RegField) (fits : bitFits bn = true) :
    decode (encBO function bn dr) = .ok (bitInstruction function bn dr) := by
  rw [encBO_eq_boWord, decode_bit, toNat_ofNat_of_bitFits fits]

theorem decode_encSH (type : ShiftType) (reg : BitVec 2) {n : Int} (fits : countFits n = true) :
    decode (encSH type reg n) = .ok (shiftInstruction reg type n) := by
  rw [encSH_eq_or, decode_shift, toInt_ofInt_of_countFits fits]

theorem decode_encIO (dev : BitVec 11) : decode (encIO dev) = .ok (.iox dev) := by
  have opcode : field (encIO dev) 11 5 = 0b11101#5 := BitVec.extractLsb'_append_eq_left
  have device : field (encIO dev) 0 11 = dev := BitVec.extractLsb'_append_eq_right
  unfold decode
  rw [opcode, device]
  rfl

/-- The rows of format TX, for each offset. -/
theorem decode_encTX (delta : BitVec 3) :
    decode (encXR 0b11011#5 delta 0) = .ok (.ldatx delta) ∧
    decode (encXR 0b11011#5 delta 1) = .ok (.ldxtx delta) ∧
    decode (encXR 0b11011#5 delta 2) = .ok (.lddtx delta) ∧
    decode (encXR 0b11011#5 delta 3) = .ok (.ldbtx delta) ∧
    decode (encXR 0b11011#5 delta 4) = .ok (.statx delta) ∧
    decode (encXR 0b11011#5 delta 5) = .ok (.stztx delta) ∧
    decode (encXR 0b11011#5 delta 6) = .ok (.stdtx delta) := by
  revert delta
  decide

theorem decode_encM4 (n : BitVec 4) :
    decode (encM4 0 n) = .ok (.tra n) ∧ decode (encM4 1 n) = .ok (.trr n) ∧
    decode (encM4 2 n) = .ok (.mcl n) ∧ decode (encM4 3 n) = .ok (.mst n) := by
  simp only [encM4_eq_or]
  exact Machine.decode_internal n

end Sys2Proof

/-! The decoder gives back every instruction from its word. -/

namespace Sys2Proof

open Sys2Proof.Claims

/-- The decoder inverts the encoder on every instruction whose operands fit their fields. -/
theorem decode_encode (i : Instr) (fits : i.wellFormed = true) : decode (encode i) = .ok i := by
  cases i with
  | stz m d | sta m d | stt m d | stx m d | std m d | ldd m d | stf m d | ldf m d | min m d | lda m d
  | ldt m d | ldx m d | add m d | sub m d | and m d | ora m d | fad m d | fsb m d | fmu m d | fdv m d
  | mpy m d | jmp m d | jpl m d => exact decode_encMR (fun _ => rfl) m d
  | jap d | jan d | jaz d | jaf d | jpc d | jnc d | jxz d | jxn d => exact decode_encCJ _ d
  | skpEql s d | skpGeq s d | skpGre s d | skpMgre s d | skpUeq s d | skpLss s d | skpLst s d
  | skpMlst s d => exact decode_encSK _ s d
  | addd | subd | comd | pack | upack | shde | bfill | movb | movbf | init | entr | leave | eleav
  | setpt | clept | clnreent | chreentpages | clepu | movew | lwcs | tset | rdus | lbyt | sbyt | mix3
  | identPL10 | identPL11 | identPL12 | identPL13 | opcom | iof | ion | pof | piof | sex | rex | pon
  | pion | ioxt | exam | depo | wait => rfl
  | exr s => exact (congrArg decode (encXR_zero_eq_regsWord _ s)).trans (decode_exr s 0)
  | rdiv s => exact (congrArg decode (encXR_zero_eq_regsWord _ s)).trans (decode_rdiv s 0)
  | rmpy s d => exact (congrArg decode (encXR_eq_regsWord _ s d)).trans (decode_rmpy s d)
  | ldatx delta | ldxtx delta | lddtx delta | ldbtx delta | statx delta | stztx delta
  | stdtx delta =>
    obtain ⟨ldatx, ldxtx, lddtx, ldbtx, statx, stztx, stdtx⟩ := decode_encTX delta
    assumption
  | swap cm1 cld s d | rand cm1 cld s d | rexo cm1 cld s d | rora cm1 cld s d =>
    exact decode_encRO false _ cm1 cld s d
  | radd adc ad1 cm1 cld s d =>
    refine (decode_encRO true _ cm1 cld s d).trans ?_
    cases adc <;> cases ad1 <;> rfl
  | tra n | trr n | mcl n | mst n =>
    obtain ⟨tra, trr, mcl, mst⟩ := decode_encM4 n
    assumption
  | nlz n =>
    refine (congrArg decode (encM8_eq_lowWord 3 _)).trans ((decode_nlz _).trans ?_)
    rw [toInt_ofInt_of_scaleFits fits]
  | dnz n =>
    refine (congrArg decode (encM8_eq_lowWord 4 _)).trans ((decode_dnz _).trans ?_)
    rw [toInt_ofInt_of_scaleFits fits]
  | mon n => exact (congrArg decode (encM8_eq_lowWord 6 n)).trans (decode_mon n)
  | srb level => exact (congrArg decode (encML_eq_mlWord _ level _)).trans (decode_srb level)
  | lrb level => exact (congrArg decode (encML_eq_mlWord _ level _)).trans (decode_lrb level)
  | irw level r => exact (congrArg decode (encML_eq_mlWord _ level _)).trans (decode_irw level r)
  | irr level r => exact (congrArg decode (encML_eq_mlWord _ level _)).trans (decode_irr level r)
  | sht t n | shd t n | sha t n | sad t n => exact decode_encSH t _ fits
  | iox dev => exact decode_encIO dev
  | sab arg | saa arg | sat arg | sax arg | aab arg | aaa arg | aat arg | aax arg =>
    exact decode_encAR _ arg
  | bsetZro bn d | bsetOne bn d | bsetBcm bn d | bsetBac bn d | bskpZro bn d | bskpOne bn d
  | bskpBcm bn d | bskpBac bn d | bstc bn d | bsta bn d | bldc bn d | blda bn d | banc bn d
  | band bn d | borc bn d | bora bn d => exact decode_encBO _ d fits

end Sys2Proof

namespace Sys2Proof.Proofs

/-- Settles O1, format by format. -/
theorem decodeInvertsEncode : Obligations.DecodeInvertsEncode := decode_encode

end Sys2Proof.Proofs
end

section
/-! Sample words of the formats (95_test_vectors.md). -/

namespace Sys2Proof

/-- A word is decoded by naming the instruction that has it. -/
theorem decode_of_encode_eq {w : Word} {i : Instr} (word : encode i = w)
    (fits : i.wellFormed = true := by rfl) : decode w = .ok i := word ▸ decode_encode i fits

end Sys2Proof

namespace Sys2Proof.Proofs

/-- Settles O3: each sample is the word of its instruction, so the decoder gives the instruction back. -/
theorem sampleWordsDecode : Obligations.SampleWordsDecode := by
  unfold Obligations.SampleWordsDecode
  and_intros <;> exact decode_of_encode_eq (by decide)

end Sys2Proof.Proofs
end

section
/-! The CPU's cycle by how the fetch and the decoder answer (30_encoding.md R80, R82, 60_exceptions.md R314). -/

namespace Sys2Proof.Machine

open Sys2Proof.Claims

variable {s t : State} {w : Word}

theorem executeWord_of_decode {i : Instr} (decoded : decode w = .ok i) : executeWord w s = exec i s := by
  rw [executeWord, decoded]

/-- An illegal word raises cause 4 (46_system.md R291). -/
theorem executeWord_of_illegal {e : IllegalWord} (illegal : decode w = .error e) :
    executeWord w s = .next (s.raiseInt 14 0o20) := by
  rw [executeWord, illegal]
  rfl

theorem cpuStep_eq_afterCheck (s : State) : cpuStep s = afterCheck (fetchExecute s) := by
  unfold cpuStep afterCheck
  cases fetchExecute s <;> rfl

theorem fetchExecute_of_ok (fetched : s.memFetch (s.cur .p) = .ok w t) :
    fetchExecute s = executeWord w t := by
  rw [fetchExecute, fetched]
  rfl

theorem fetchExecute_of_abandoned (faulted : s.memFetch (s.cur .p) = .abandoned t) :
    fetchExecute s = .next t := by
  rw [fetchExecute, faulted]
  rfl

theorem fetchExecute_of_refused {r : Refusal} (refused : s.memFetch (s.cur .p) = .refused r) :
    fetchExecute s = .refused r := by
  rw [fetchExecute, refused]
  rfl

end Sys2Proof.Machine

namespace Sys2Proof.Proofs

open Sys2Proof.Machine Sys2Proof.Claims

/-- Settles O18: a step in RUN is the CPU's step, whose fetch at P is the same with the turn taken. -/
theorem stepRunsDecodedInstruction : Obligations.StepRunsDecodedInstruction := by
  intro s s₁ w mine run
  have ran : step s = afterCheck (fetchExecute s.turnTaken) :=
    (step_of_run mine run).trans (cpuStep_eq_afterCheck _)
  refine ⟨fun fetched => ⟨fun i decoded => ?executed, fun e illegal => ?illegal⟩, fun faulted => ?faulted,
    fun r refused => ?refused⟩
  case executed => rw [ran, fetchExecute_of_ok fetched, executeWord_of_decode decoded]
  case illegal =>
    rw [ran, fetchExecute_of_ok fetched, executeWord_of_illegal illegal]
    rfl
  case faulted =>
    rw [ran, fetchExecute_of_abandoned faulted]
    rfl
  case refused =>
    rw [ran, fetchExecute_of_refused refused]
    rfl

end Sys2Proof.Proofs
end

section
/-! Words by their fields: what a mask says of a field, and what a change outside a field leaves
(30_encoding.md R82, R92). -/

namespace Sys2Proof

variable {w v mask pattern : Word} {lo n : Nat}

/-- A field whose bits a mask all selects has the value it has in the pattern. -/
theorem field_of_and_eq (h : w &&& mask = pattern) (selected : field mask lo n = BitVec.allOnes n) :
    field w lo n = field pattern lo n := by
  rw [← h, field, field, BitVec.extractLsb'_and, show mask.extractLsb' lo n = _ from selected,
    BitVec.and_allOnes]

/-- A change outside a field leaves the field. -/
theorem field_xor (outside : field v lo n = 0) : field (w ^^^ v) lo n = field w lo n := by
  rw [field, BitVec.extractLsb'_xor, show v.extractLsb' lo n = _ from outside]
  exact BitVec.xor_zero

/-- Low bits lie outside every field above them. -/
theorem field_zeroExtend {m : Nat} (k : BitVec m) (above : m ≤ lo) : field (k.zeroExtend 16) lo n = 0 := by
  apply BitVec.eq_of_getLsbD_eq
  intro i hi
  simp [field, BitVec.getLsbD_of_ge k (lo + i) (by omega)]

theorem field_xor_zeroExtend {m : Nat} (k : BitVec m) (above : m ≤ lo) :
    field (w ^^^ k.zeroExtend 16) lo n = field w lo n :=
  field_xor (field_zeroExtend k above)

/-- The mask of a field. -/
def fieldMask (lo n : Nat) : Word := (BitVec.allOnes n).zeroExtend 16 <<< lo

/-- A field decides what its mask selects. -/
theorem and_fieldMask_eq (same : field w lo n = field v lo n) :
    w &&& fieldMask lo n = v &&& fieldMask lo n := by
  apply BitVec.eq_of_getLsbD_eq
  intro i hi
  by_cases inside : lo ≤ i ∧ i - lo < n
  · obtain ⟨above, below⟩ := inside
    have bit : (field w lo n).getLsbD (i - lo) = (field v lo n).getLsbD (i - lo) := by rw [same]
    simp only [field, BitVec.getLsbD_extractLsb', below, decide_true, Bool.true_and,
      Nat.add_sub_of_le above] at bit
    rw [BitVec.getLsbD_and, BitVec.getLsbD_and, bit]
  · have unselected : (fieldMask lo n).getLsbD i = false := by
      simp only [fieldMask, BitVec.getLsbD_shiftLeft, BitVec.getLsbD_setWidth, BitVec.getLsbD_allOnes]
      simp
      omega
    rw [BitVec.getLsbD_and, BitVec.getLsbD_and, unselected, Bool.and_false, Bool.and_false]

/-! ### The slots of the opcode map -/

theorem decode_shiftSlot (slot : field w 11 5 = 0b11011#5) : decode w = .ok (decodeShift w) := by
  unfold decode
  rw [slot]
  rfl

theorem decode_system (slot : field w 11 5 = 0b11010#5) : decode w = decodeSystem w := by
  unfold decode
  rw [slot]
  rfl

/-- In the extended slot, bits 10:6 that pick one row give the instruction of that row. -/
theorem decode_of_extendedRow {row : BitVec 5} (i : Word → Instr) (slot : field w 11 5 = 0b11000#5)
    (number : field w 6 5 = row)
    (picked : ∀ w, field w 6 2 = row.extractLsb' 0 2 → field w 6 5 = row →
        decodeExtended w = .ok (i w) := by
      intro w format number
      unfold decodeExtended
      rw [format, number]
      rfl) :
    decode w = .ok (i w) := by
  have word : 0b11000#5 ++ row ++ field w 0 6 = w := by rw [← slot, ← number, word_fields]
  simpa only [word] using decode_extendedRow row i (field w 0 6) picked

/-! ### What the ignored bits do not change (R92) -/

/-- A row of the extended slot decodes alike whatever its low bits, where its instruction does. -/
theorem decode_xor_of_extendedRow {m : Nat} {row : BitVec 5} {i : Word → Instr} (k : BitVec m)
    (decodes : ∀ {w}, field w 11 5 = 0b11000#5 → field w 6 5 = row → decode w = .ok (i w))
    (slot : field w 11 5 = 0b11000#5) (number : field w 6 5 = row) (low : m ≤ 6)
    (same : i (w ^^^ k.zeroExtend 16) = i w) : decode (w ^^^ k.zeroExtend 16) = decode w := by
  have slot' := (field_xor_zeroExtend (w := w) (n := 5) k (low.trans (by decide : 6 ≤ 11))).trans slot
  have number' := (field_xor_zeroExtend (w := w) (n := 5) k low).trans number
  rw [decodes slot' number', decodes slot number, same]

/-- RDIV and EXR take no operand from bits 2:0. -/
theorem srField_xor_zeroExtend (k : BitVec 3) : srField (w ^^^ k.zeroExtend 16) = srField w := by
  rw [srField, srField, field_xor_zeroExtend k le_rfl]

end Sys2Proof

namespace Sys2Proof.Proofs

/-- Settles O5: no row reads the bits it ignores; format M4 tests bits 5:4. -/
theorem ignoredBitsHaveNoEffect : Obligations.IgnoredBitsHaveNoEffect := by
  refine ⟨fun w shift => ?shift, fun w k row => ?registers, fun w k row => ?bytes, fun w k wait => ?wait,
    fun w internal reserved => ?internal⟩
  case shift =>
    have slot : field w 11 5 = 0b11011#5 := field_of_and_eq shift rfl
    rw [decode_shiftSlot slot, decode_shiftSlot ((field_xor rfl).trans slot), decodeShift_eq,
      decodeShift_eq, field_xor rfl, field_xor rfl, field_xor rfl]
  case registers =>
    obtain rdiv | exr := row
    · exact decode_xor_of_extendedRow k (decode_of_extendedRow fun w => .rdiv (srField w))
        (field_of_and_eq rdiv rfl) (field_of_and_eq rdiv rfl) (by decide)
        (congrArg Instr.rdiv (srField_xor_zeroExtend k))
    · exact decode_xor_of_extendedRow k (decode_of_extendedRow fun w => .exr (srField w))
        (field_of_and_eq exr rfl) (field_of_and_eq exr rfl) (by decide)
        (congrArg Instr.exr (srField_xor_zeroExtend k))
  case bytes =>
    obtain lbyt | sbyt | mix3 := row
    · exact decode_xor_of_extendedRow k (decode_of_extendedRow fun _ => .lbyt)
        (field_of_and_eq lbyt rfl) (field_of_and_eq lbyt rfl) le_rfl rfl
    · exact decode_xor_of_extendedRow k (decode_of_extendedRow fun _ => .sbyt)
        (field_of_and_eq sbyt rfl) (field_of_and_eq sbyt rfl) le_rfl rfl
    · exact decode_xor_of_extendedRow k (decode_of_extendedRow fun _ => .mix3)
        (field_of_and_eq mix3 rfl) (field_of_and_eq mix3 rfl) le_rfl rfl
  case wait =>
    have decodes {w : Word} (slot : field w 11 5 = 0b11010#5) (function : field w 8 3 = 0b010#3) :
        decode w = .ok .wait := by
      rw [decode_system slot, decodeSystem, function]
      rfl
    have slot : field w 11 5 = 0b11010#5 := field_of_and_eq wait rfl
    have function : field w 8 3 = 0b010#3 := field_of_and_eq wait rfl
    rw [decodes slot function, decodes ((field_xor_zeroExtend k (by decide)).trans slot)
      ((field_xor_zeroExtend k (by decide)).trans function)]
  case internal =>
    have slot : field w 11 5 = 0b11010#5 := field_of_and_eq internal rfl
    have function : field w 8 3 = 0 := field_of_and_eq internal rfl
    have nonzero : field w 4 2 ≠ 0 := fun zero => reserved (and_fieldMask_eq (v := 0) (lo := 4) zero)
    refine ⟨.systemSlot, ?_⟩
    rw [decode_system slot, decodeSystem, function, if_pos rfl, decodeInternal, if_neg nonzero]

end Sys2Proof.Proofs
end

section
/-! The encoder on decoded instructions: what each group of rows encodes to, and the fields of a word joined
again (30_encoding.md R82, R83, R92). -/

namespace Sys2Proof

open Sys2Proof.Claims

variable {w : Word} {i : Instr}

/-! ### Fields joined -/

theorem field_append {hi lo m n : Nat} (next : hi = lo + n := by rfl) :
    field w hi m ++ field w lo n = field w lo (m + n) :=
  BitVec.extractLsb'_append_extractLsb'_eq_extractLsb' next

theorem field_whole (w : Word) : field w 0 16 = w := BitVec.extractLsb'_eq_self

theorem ofBool_fieldBit (w : Word) (n : Nat) : BitVec.ofBool (fieldBit w n) = field w n 1 := by
  ext i inside
  simp [fieldBit, field, show i = 0 by omega]

theorem bitsOfMode_modeOfBits : ∀ bits : BitVec 3, bitsOfMode (modeOfBits bits) = bits := by decide

theorem codeOfReg_regOfCode : ∀ code : BitVec 3, codeOfReg (regOfCode code) = code := by decide

theorem bitsOfShiftType_shiftTypeOfBits :
    ∀ bits : BitVec 2, bitsOfShiftType (shiftTypeOfBits bits) = bits := by decide

/-- Ignored bits cleared at the end of a word. -/
theorem append_zero_eq_and_not {m n : Nat} (high : BitVec m) (low : BitVec n) :
    high ++ 0#n = (high ++ low) &&& ~~~(0#m ++ BitVec.allOnes n) := by
  rw [BitVec.not_append, BitVec.and_append, BitVec.not_allOnes, BitVec.and_zero, BitVec.not_zero,
    BitVec.and_allOnes]

/-- Ignored bits cleared inside a word. -/
theorem append_zero_append_eq_and_not {m n k : Nat} (high : BitVec m) (inner : BitVec n)
    (low : BitVec k) :
    high ++ 0#n ++ low = (high ++ inner ++ low) &&& ~~~(0#m ++ BitVec.allOnes n ++ 0#k) := by
  rw [BitVec.not_append, BitVec.and_append, ← append_zero_eq_and_not, BitVec.not_zero,
    BitVec.and_allOnes]

/-! ### Each format's word from its fields -/

theorem encMR_fields (w : Word) : encMR (field w 11 5) (modeField w) (lowByte w) = w := by
  rw [encMR, modeField, lowByte, bitsOfMode_modeOfBits, field_append, field_append]
  exact field_whole w

theorem encCJ_fields (slot : field w 11 5 = 0b10110#5) : encCJ (field w 8 3) (lowByte w) = w := by
  rw [encCJ, lowByte, ← slot, field_append, field_append]
  exact field_whole w

theorem encAR_fields (slot : field w 11 5 = 0b11110#5) : encAR (field w 8 3) (lowByte w) = w := by
  rw [encAR, lowByte, ← slot, field_append, field_append]
  exact field_whole w

theorem encM8_fields (slot : field w 11 5 = 0b11010#5) : encM8 (field w 8 3) (lowByte w) = w := by
  rw [encM8, lowByte, ← slot, field_append, field_append]
  exact field_whole w

theorem encIO_fields (slot : field w 11 5 = 0b11101#5) : encIO (field w 0 11) = w := by
  rw [encIO, ← slot, field_append]
  exact field_whole w

theorem encXR_fields (slot : field w 11 5 = 0b11000#5) :
    encXR (field w 6 5) (field w 3 3) (field w 0 3) = w := by
  rw [encXR, ← slot, field_append, field_append, field_append]
  exact field_whole w

theorem encSK_fields (slot : field w 11 5 = 0b11000#5) (format : field w 6 2 = 0#2) :
    encSK (field w 8 3) (srField w) (drField w) = w := by
  rw [encSK, srField, drField, codeOfReg_regOfCode, codeOfReg_regOfCode, ← slot,
    ← format, field_append, field_append, field_append, field_append]
  exact field_whole w

theorem encM4_fields (slot : field w 11 5 = 0b11010#5) (function : field w 8 3 = 0#3)
    (reserved : field w 4 2 = 0#2) : encM4 (field w 6 2) (field w 0 4) = w := by
  rw [encM4, ← slot, ← function, ← reserved, field_append, field_append, field_append,
    field_append]
  exact field_whole w

theorem encML_fields (slot : field w 11 5 = 0b11010#5) :
    encML (field w 7 4) (field w 3 4) (field w 0 3) = w := by
  rw [encML, ← slot, field_append, field_append, field_append]
  exact field_whole w

theorem encBO_fields (slot : field w 11 5 = 0b11111#5) :
    encBO (field w 7 4) (field w 3 4).toNat (drField w) = w := by
  rw [encBO, drField, codeOfReg_regOfCode, BitVec.ofNat_toNat, BitVec.setWidth_eq, ← slot,
    field_append, field_append, field_append]
  exact field_whole w

/-- The ignored bit 6 of format SH is cleared. -/
theorem encSH_fields (slot : field w 11 5 = 0b11011#5) :
    encSH (shiftTypeOfBits (field w 9 2)) (field w 7 2) (field w 0 6).toInt = w &&& ~~~0o100 := by
  rw [encSH, bitsOfShiftType_shiftTypeOfBits, BitVec.ofInt_toInt, ← slot, field_append,
    field_append, append_zero_append_eq_and_not _ (field w 6 1), field_append, field_append]
  exact congrArg (· &&& ~~~0o100) (field_whole w)

theorem roWord_fields (slot : field w 11 5 = 0b11001#5) :
    roWord (0b11001#5 ++ field w 8 3 ++ 0#8) (fieldBit w 7) (fieldBit w 6) (srField w) (drField w) = w := by
  rw [roWord_eq_append, srField, drField, codeOfReg_regOfCode, codeOfReg_regOfCode, ofBool_fieldBit,
    ofBool_fieldBit, ← slot, field_append, field_append, field_append, field_append,
    field_append]
  exact field_whole w

/-! ### What the tables of rows encode to -/

/-- The instruction is well formed, `word` is its word and `ignored` the bits its row ignores. -/
structure Encodes (i : Instr) (ignored word : Word) : Prop where
  fits : i.wellFormed = true
  ignores : ignoredBits i = ignored
  word_eq : encode i = word

theorem conditionalJump_encodes (condition : BitVec 3) (disp : BitVec 8) :
    Encodes (conditionalJump condition disp) 0 (encCJ condition disp) := by
  obtain ⟨condition⟩ := condition
  fin_cases condition <;> exact ⟨rfl, rfl, rfl⟩

theorem argumentInstruction_encodes (function : BitVec 3) (arg : BitVec 8) :
    Encodes (argumentInstruction function arg) 0 (encAR function arg) := by
  obtain ⟨function⟩ := function
  fin_cases function <;> exact ⟨rfl, rfl, rfl⟩

theorem skipInstruction_encodes (condition : BitVec 3) (sr dr : RegField) :
    Encodes (skipInstruction condition sr dr) 0 (encSK condition sr dr) := by
  obtain ⟨condition⟩ := condition
  fin_cases condition <;> exact ⟨rfl, rfl, rfl⟩

theorem registerOperation_encodes (function : BitVec 3) (cm1 cld : Bool) (sr dr : RegField) :
    Encodes (registerOperation function cm1 cld sr dr) 0
      (roWord (0b11001#5 ++ function ++ 0#8) cm1 cld sr dr) := by
  obtain ⟨function⟩ := function
  fin_cases function <;> exact ⟨rfl, rfl, encRO_eq_roWord _ _ cm1 cld sr dr⟩

theorem bitFits_toNat (n : BitVec 4) : bitFits n.toNat = true := decide_eq_true n.isLt

theorem bitInstruction_encodes (function n : BitVec 4) (dr : RegField) :
    Encodes (bitInstruction function n.toNat dr) 0 (encBO function n.toNat dr) := by
  obtain ⟨function⟩ := function
  fin_cases function <;> exact ⟨bitFits_toNat n, rfl, rfl⟩

theorem countFits_toInt : ∀ count : BitVec 6, countFits count.toInt = true := by decide

theorem shiftInstruction_encodes (reg : BitVec 2) (type : ShiftType) (count : BitVec 6) :
    Encodes (shiftInstruction reg type count.toInt) 0o100 (encSH type reg count.toInt) := by
  obtain ⟨reg⟩ := reg
  fin_cases reg <;> exact ⟨countFits_toInt count, rfl, rfl⟩

theorem scaleFits_toInt (scale : BitVec 8) : scaleFits scale.toInt = true := by
  have low := BitVec.le_toInt scale
  have high := BitVec.toInt_lt (x := scale)
  simp only [scaleFits, Bool.and_eq_true, decide_eq_true_eq]
  omega

end Sys2Proof
end

section
/-! What the decoder reads from each group of rows encodes back (30_encoding.md R82, R92). -/

namespace Sys2Proof

open Sys2Proof.Claims

variable {w v ignored : Word} {i : Instr}

/-- The instruction is well formed and its word is `w` with the ignored bits 0. -/
def Reencodes (w : Word) (i : Instr) : Prop :=
  i.wellFormed = true ∧ encode i = w &&& ~~~ignoredBits i

theorem Encodes.reencodes (h : Encodes i ignored v) (cleared : v = w &&& ~~~ignored) :
    Reencodes w i := by
  obtain ⟨fits, ignores, word⟩ := h
  exact ⟨fits, by rw [word, ignores, cleared]⟩

theorem Encodes.reencodes_of_eq (h : Encodes i 0 v) (word : v = w) : Reencodes w i :=
  h.reencodes (word.trans (BitVec.and_allOnes (x := w)).symm)

/-! ### The choices of the decoder -/

/-- Every instruction that the decoder answers has the property. -/
def Yields (P : Instr → Prop) (r : Except IllegalWord Instr) : Prop := ∀ i, r = .ok i → P i

namespace Yields

variable {P : Instr → Prop} {r r' : Except IllegalWord Instr}

theorem ok (h : P i) : Yields P (.ok i) := by
  rintro _ ⟨⟩
  exact h

theorem error (e : IllegalWord) : Yields P (.error e) := nofun

theorem ite {c : Prop} [Decidable c] (yes : c → Yields P r) (no : ¬c → Yields P r') :
    Yields P (if c then r else r') := by
  split
  · exact yes ‹c›
  · exact no ‹¬c›

end Yields

/-! ### Words with all bits fixed -/

theorem decodeExtended01_encodes (low : BitVec 6) :
    Yields (Encodes · 0 (0b11000#5 ++ 0b00001#5 ++ low)) (decodeExtended01 low) := by
  unfold decodeExtended01
  iterate 15 refine .ite (by rintro rfl; exact .ok ⟨rfl, rfl, rfl⟩) fun _ => ?_
  exact .error _

theorem decodeExtended03_encodes (low : BitVec 6) :
    Yields (Encodes · 0 (0b11000#5 ++ 0b00011#5 ++ low)) (decodeExtended03 low) := by
  unfold decodeExtended03
  iterate 5 refine .ite (by rintro rfl; exact .ok ⟨rfl, rfl, rfl⟩) fun _ => ?_
  exact .error _

theorem decodeIdent_encodes (low : BitVec 6) :
    Yields (Encodes · 0 (0b11000#5 ++ 0b11110#5 ++ low)) (decodeIdent low) := by
  unfold decodeIdent
  iterate 4 refine .ite (by rintro rfl; exact .ok ⟨rfl, rfl, rfl⟩) fun _ => ?_
  exact .error _

theorem decodeSwitch_encodes (low : BitVec 8) :
    Yields (Encodes · 0 (encM8 1 low)) (decodeSwitch low) := by
  unfold decodeSwitch
  iterate 12 refine .ite (by rintro rfl; exact .ok ⟨rfl, rfl, rfl⟩) fun _ => ?_
  exact .error _

/-! ### The extended slot (R87) -/

theorem decodePhysical_encodes (w : Word) :
    Yields (Encodes · 0 (encXR 0b11011#5 (field w 3 3) (field w 0 3))) (decodePhysical w) := by
  unfold decodePhysical
  generalize field w 0 3 = fn
  iterate 7 refine .ite (by rintro rfl; exact .ok ⟨rfl, rfl, rfl⟩) fun _ => ?_
  exact .error _

/-- A row of one register whose other field is ignored. -/
theorem encXR_source_fields {row : BitVec 5} (slot : field w 11 5 = 0b11000#5)
    (number : field w 6 5 = row) :
    encXR row (codeOfReg (srField w)) 0 = w &&& ~~~0o7 := by
  rw [srField, codeOfReg_regOfCode, ← number]
  refine (append_zero_eq_and_not _ (field w 0 3)).trans (congrArg (· &&& ~~~0o7) ?_)
  exact encXR_fields slot

/-- A row of no operands whose low six bits are ignored. -/
theorem encXR_zero_fields {row : BitVec 5} (slot : field w 11 5 = 0b11000#5)
    (number : field w 6 5 = row) :
    encXR row 0 0 = w &&& ~~~0o77 := by
  have high : encXR row 0 0 = 0b11000#5 ++ row ++ 0#6 := by
    rw [encXR]
    exact append_registers _ 0 0
  rw [high, append_zero_eq_and_not _ (field w 0 6), ← slot, ← number]
  exact congrArg (· &&& ~~~0o77) (word_fields w)

theorem decodeExtended_reencodes (slot : field w 11 5 = 0b11000#5) :
    Yields (Reencodes w) (decodeExtended w) := by
  have word {row : BitVec 5} (number : field w 6 5 = row) : 0b11000#5 ++ row ++ field w 0 6 = w := by
    rw [← slot, ← number, word_fields]
  unfold decodeExtended
  refine .ite (fun skip => .ok ?skip) fun _ => .ite (fun row01 => ?row01) fun _ =>
    .ite (fun row03 => ?row03) fun _ =>
    .ite (fun exr => .ok (Encodes.reencodes ⟨rfl, rfl, rfl⟩ (encXR_source_fields slot exr))) fun _ =>
    .ite (fun rmpy => .ok ?rmpy) fun _ =>
    .ite (fun rdiv => .ok (Encodes.reencodes ⟨rfl, rfl, rfl⟩ (encXR_source_fields slot rdiv))) fun _ =>
    .ite (fun lbyt => .ok (Encodes.reencodes ⟨rfl, rfl, rfl⟩ (encXR_zero_fields slot lbyt))) fun _ =>
    .ite (fun sbyt => .ok (Encodes.reencodes ⟨rfl, rfl, rfl⟩ (encXR_zero_fields slot sbyt))) fun _ =>
    .ite (fun movew => .ite (fun low => .ok ?movew) fun _ => .error _) fun _ =>
    .ite (fun mix3 => .ok (Encodes.reencodes ⟨rfl, rfl, rfl⟩ (encXR_zero_fields slot mix3))) fun _ =>
    .ite (fun physical => ?physical) fun _ =>
    .ite (fun lwcs => .ite (fun low => .ok ?lwcs) fun _ => .error _) fun _ =>
    .ite (fun ident => ?ident) fun _ => .error _
  case skip =>
    rw [decodeSkip_eq]
    exact (skipInstruction_encodes _ _ _).reencodes_of_eq (encSK_fields slot skip)
  case row01 => exact fun i h => (decodeExtended01_encodes _ i h).reencodes_of_eq (word row01)
  case row03 => exact fun i h => (decodeExtended03_encodes _ i h).reencodes_of_eq (word row03)
  case rmpy =>
    refine Encodes.reencodes_of_eq (v := encXR _ _ _) ⟨rfl, rfl, rfl⟩ ?_
    rw [srField, drField, codeOfReg_regOfCode, codeOfReg_regOfCode, ← rmpy, encXR_fields slot]
  case movew =>
    exact Encodes.reencodes_of_eq (v := 0b11000#5 ++ 0b11001#5 ++ 0) ⟨rfl, rfl, rfl⟩ (low ▸ word movew)
  case physical =>
    refine fun i h => (decodePhysical_encodes w i h).reencodes_of_eq ?_
    rw [← physical, encXR_fields slot]
  case lwcs =>
    exact Encodes.reencodes_of_eq (v := 0b11000#5 ++ 0b11101#5 ++ 0) ⟨rfl, rfl, rfl⟩ (low ▸ word lwcs)
  case ident => exact fun i h => (decodeIdent_encodes _ i h).reencodes_of_eq (word ident)

/-! ### The system slot (R88) -/

theorem bitVec_three_of_ne (k : BitVec 3) (_ : k ≠ 0) (_ : k ≠ 1) (_ : k ≠ 2) (_ : k ≠ 3)
    (_ : k ≠ 4) (_ : k ≠ 5) (_ : k ≠ 6) : k = 7 := by bv_omega

theorem bitVec_two_of_ne : ∀ k : BitVec 2, k ≠ 0 → k ≠ 1 → k ≠ 2 → k = 3 := by decide

theorem decodeInternal_encodes (w : Word) :
    Yields (fun i => field w 4 2 = 0 ∧ Encodes i 0 (encM4 (field w 6 2) (field w 0 4)))
      (decodeInternal w) := by
  unfold decodeInternal
  generalize field w 6 2 = k
  refine .ite (fun reserved => ?_) fun _ => .error _
  iterate 3 refine .ite (by rintro rfl; exact .ok ⟨reserved, rfl, rfl, rfl⟩) fun _ => ?_
  obtain rfl := bitVec_two_of_ne k ‹_› ‹_› ‹_›
  exact .ok ⟨reserved, rfl, rfl, rfl⟩

/-- The row of format ML from the function `w[10:8]` and the half `w[7]`. -/
theorem levelRow_field {function : BitVec 3} {half : Bool} (picked : field w 8 3 = function)
    (bit : fieldBit w 7 = half) : field w 7 4 = function ++ BitVec.ofBool half := by
  rw [← picked, ← bit, ofBool_fieldBit, field_append]

theorem decodeBlock_encodes (function : field w 8 3 = 0b101#3) :
    Yields (Encodes · 0 (encML (field w 7 4) (field w 3 4) (field w 0 3))) (decodeBlock w) := by
  unfold decodeBlock
  refine .ite (fun half => ?lrb) fun half => ?srb
  case lrb =>
    rw [levelRow_field function half]
    exact .ite (fun low => .ok ⟨rfl, rfl, by rw [low]; rfl⟩) fun _ => .error _
  case srb =>
    rw [levelRow_field function (Bool.eq_false_of_not_eq_true half)]
    exact .ite (fun low => .ok ⟨rfl, rfl, by rw [low]; rfl⟩) fun _ => .error _

/-- A row of format ML with a register is the word of its level and register. -/
theorem reencodes_of_levelRow {function : BitVec 3} {half : Bool} (slot : field w 11 5 = 0b11010#5)
    (picked : field w 8 3 = function) (bit : fieldBit w 7 = half)
    (encodes : Encodes i 0
      (encML (function ++ BitVec.ofBool half) (field w 3 4) (codeOfReg (drField w)))) :
    Reencodes w i := by
  refine encodes.reencodes_of_eq ?_
  rw [drField, codeOfReg_regOfCode, ← levelRow_field picked bit, encML_fields slot]

theorem decodeSystem_reencodes (slot : field w 11 5 = 0b11010#5) :
    Yields (Reencodes w) (decodeSystem w) := by
  have byteRow {function : BitVec 3} (picked : field w 8 3 = function) :
      encM8 function (lowByte w) = w := by
    rw [← picked, encM8_fields slot]
  unfold decodeSystem
  refine .ite (fun internal => ?internal) fun k₀ => .ite (fun switch => ?switch) fun k₁ =>
    .ite (fun wait => .ok ?wait) fun k₂ => .ite (fun nlz => .ok ?nlz) fun k₃ =>
    .ite (fun dnz => .ok ?dnz) fun k₄ => .ite (fun block => ?block) fun k₅ =>
    .ite (fun mon => .ok (Encodes.reencodes_of_eq ⟨rfl, rfl, rfl⟩ (byteRow mon))) fun k₆ => ?level
  case internal =>
    intro i h
    obtain ⟨reserved, encodes⟩ := decodeInternal_encodes w i h
    exact encodes.reencodes_of_eq (encM4_fields slot internal reserved)
  case switch => exact fun i h => (decodeSwitch_encodes _ i h).reencodes_of_eq (byteRow switch)
  case wait =>
    refine Encodes.reencodes ⟨rfl, rfl, rfl⟩ ?_
    refine (append_zero_eq_and_not _ (lowByte w)).trans (congrArg (· &&& ~~~0o377) ?_)
    exact byteRow wait
  case nlz =>
    refine Encodes.reencodes_of_eq (v := encM8 _ _) ⟨scaleFits_toInt _, rfl, rfl⟩ ?_
    rw [BitVec.ofInt_toInt, byteRow nlz]
  case dnz =>
    refine Encodes.reencodes_of_eq (v := encM8 _ _) ⟨scaleFits_toInt _, rfl, rfl⟩ ?_
    rw [BitVec.ofInt_toInt, byteRow dnz]
  case block => exact fun i h => (decodeBlock_encodes block i h).reencodes_of_eq (encML_fields slot)
  case level =>
    have level : field w 8 3 = 7 := bitVec_three_of_ne _ k₀ k₁ k₂ k₃ k₄ k₅ k₆
    exact .ite
      (fun irr => .ok (reencodes_of_levelRow slot level irr ⟨rfl, rfl, rfl⟩))
      fun irw => .ok
        (reencodes_of_levelRow slot level (Bool.eq_false_of_not_eq_true irw) ⟨rfl, rfl, rfl⟩)

/-! ### The whole map (R86) -/

theorem decodeMemory_encodes {op : BitVec 5} (found : decodeMemory w op = some i) :
    Encodes i 0 (encMR op (modeField w) (lowByte w)) := by
  obtain ⟨op⟩ := op
  fin_cases op <;> cases found <;> exact ⟨rfl, rfl, rfl⟩

/-- A word that decodes gives a well-formed instruction whose word it is, up to the ignored bits. -/
theorem decode_reencodes (w : Word) : Yields (Reencodes w) (decode w) := by
  unfold decode
  refine .ite (fun jump => .ok ?jump) fun _ => .ite decodeExtended_reencodes fun _ =>
    .ite (fun register => .ok ?register) fun _ => .ite decodeSystem_reencodes fun _ =>
    .ite (fun shift => .ok ?shift) fun _ =>
    .ite (fun iox => .ok (Encodes.reencodes_of_eq ⟨rfl, rfl, rfl⟩ (encIO_fields iox))) fun _ =>
    .ite (fun argument => .ok ?argument) fun _ => .ite (fun bit => .ok ?bit) fun _ => ?memory
  case jump =>
    rw [decodeConditionalJump_eq]
    exact (conditionalJump_encodes _ _).reencodes_of_eq (encCJ_fields jump)
  case register =>
    rw [decodeRegisterOp_eq]
    exact (registerOperation_encodes _ _ _ _ _).reencodes_of_eq (roWord_fields register)
  case shift =>
    rw [decodeShift_eq]
    exact (shiftInstruction_encodes _ _ _).reencodes (encSH_fields shift)
  case argument =>
    rw [decodeArgument_eq]
    exact (argumentInstruction_encodes _ _).reencodes_of_eq (encAR_fields argument)
  case bit =>
    rw [decodeBit_eq]
    exact (bitInstruction_encodes _ _ _).reencodes_of_eq (encBO_fields bit)
  case memory =>
    cases found : decodeMemory w (field w 11 5) with
    | some i => exact .ok ((decodeMemory_encodes found).reencodes_of_eq (encMR_fields w))
    | none => exact .error _

end Sys2Proof

namespace Sys2Proof.Proofs

/-- Settles O2, group by group of the opcode map. -/
theorem encodeInvertsDecode : Obligations.EncodeInvertsDecode := decode_reencodes

end Sys2Proof.Proofs
end

section
/-! The illegal words (30_encoding.md R90): the masks of the rows of R87 and R88 in terms of fields, and the
decoder held to them row by row. -/

namespace Sys2Proof

open Sys2Proof.Claims

variable {w : Word} {i : Instr}

/-! ### Which words are legal, by their fields -/

/-- A mask over one field tests the field. -/
theorem and_mask_eq_iff {mask pattern : Word} {lo n : Nat} (whole : fieldMask lo n = mask)
    (selected : field mask lo n = BitVec.allOnes n) (inside : pattern &&& mask = pattern) :
    w &&& mask = pattern ↔ field w lo n = field pattern lo n := by
  refine ⟨fun same => field_of_and_eq same selected, fun same => ?_⟩
  rw [← inside, ← whole, and_fieldMask_eq same]

/-- A legal word is in no unassigned slot, and in the extended and the system slot it matches a row. -/
theorem illegalWord_eq_false_iff : illegalWord w = false ↔
    field w 11 5 ≠ 0b11100#5 ∧
    (field w 11 5 = 0b11000#5 → field w 6 2 = 0 ∨ fixedRow w = true ∨ fieldRow87 w = true) ∧
    (field w 11 5 = 0b11010#5 → fixedRow w = true ∨ fieldRow88 w = true) := by
  have slot {op : Word} (inside : op &&& 0o174000 = op) :
      w &&& 0o174000 = op ↔ field w 11 5 = field op 11 5 :=
    and_mask_eq_iff (by decide) (by decide) inside
  have unassigned : w &&& 0o174000 = 0o160000 ↔ field w 11 5 = 0b11100#5 := slot (by decide)
  have extended : w &&& 0o174000 = 0o140000 ↔ field w 11 5 = 0b11000#5 := slot (by decide)
  have system : w &&& 0o174000 = 0o150000 ↔ field w 11 5 = 0b11010#5 := slot (by decide)
  have format : w &&& 0o300 = 0 ↔ field w 6 2 = 0 := and_mask_eq_iff (by decide) (by decide) (by decide)
  rw [ne_eq, ← unassigned, ← extended, ← system, ← format, illegalWord]
  simp only [Bool.or_eq_false_iff, Bool.and_eq_false_iff, beq_eq_false_iff_ne, bne_eq_false_iff_eq,
    Bool.not_eq_false', imp_iff_not_or, or_assoc, and_assoc, ne_eq]

/-! ### A word that decodes matches a row -/

theorem fieldRow87_of_row {row : BitVec 5} (slot : field w 11 5 = 0b11000#5) (number : field w 6 5 = row)
    (listed : [0o140600, 0o141200, 0o141600, 0o142200, 0o142600, 0o143200].contains
      (0b11000#5 ++ row ++ 0#6 : Word) = true) : fieldRow87 w = true := by
  have high := Laws.encXR_row (field w 6 5) (field w 3 3) (field w 0 3)
  rw [encXR_fields slot, number] at high
  rw [fieldRow87, high, listed, Bool.true_or]

theorem fieldRow87_of_physical (slot : field w 11 5 = 0b11000#5) (number : field w 6 5 = 0b11011#5)
    (function : field w 0 3 ≠ 7) : fieldRow87 w = true := by
  have high := Laws.encXR_row (field w 6 5) (field w 3 3) (field w 0 3)
  rw [encXR_fields slot, number] at high
  have low : w &&& 0o7 ≠ 0o7 := fun same => function (field_of_and_eq same (by decide))
  rw [fieldRow87, high, bne_iff_ne.mpr low]
  rfl

theorem decodeExtended01_fixedRow (low : BitVec 6) :
    Yields (fun _ => fixedRow (0b11000#5 ++ 0b00001#5 ++ low) = true) (decodeExtended01 low) := by
  unfold decodeExtended01
  iterate 15 refine .ite (by rintro rfl; exact .ok rfl) fun _ => ?_
  exact .error _

theorem decodeExtended03_fixedRow (low : BitVec 6) :
    Yields (fun _ => fixedRow (0b11000#5 ++ 0b00011#5 ++ low) = true) (decodeExtended03 low) := by
  unfold decodeExtended03
  iterate 5 refine .ite (by rintro rfl; exact .ok rfl) fun _ => ?_
  exact .error _

theorem decodeIdent_fixedRow (low : BitVec 6) :
    Yields (fun _ => fixedRow (0b11000#5 ++ 0b11110#5 ++ low) = true) (decodeIdent low) := by
  unfold decodeIdent
  iterate 4 refine .ite (by rintro rfl; exact .ok rfl) fun _ => ?_
  exact .error _

theorem decodeSwitch_fixedRow (low : BitVec 8) :
    Yields (fun _ => fixedRow (encM8 1 low) = true) (decodeSwitch low) := by
  unfold decodeSwitch
  iterate 12 refine .ite (by rintro rfl; exact .ok rfl) fun _ => ?_
  exact .error _

theorem decodePhysical_function (w : Word) : Yields (fun _ => field w 0 3 ≠ 7) (decodePhysical w) := by
  unfold decodePhysical
  generalize field w 0 3 = fn
  iterate 7 refine .ite (by rintro rfl; exact .ok (by decide)) fun _ => ?_
  exact .error _

theorem decodeExtended_matchesRow (slot : field w 11 5 = 0b11000#5) :
    Yields (fun _ => field w 6 2 = 0 ∨ fixedRow w = true ∨ fieldRow87 w = true) (decodeExtended w) := by
  have word {row : BitVec 5} (number : field w 6 5 = row) : 0b11000#5 ++ row ++ field w 0 6 = w := by
    rw [← slot, ← number, word_fields]
  have matched {row : BitVec 5} (number : field w 6 5 = row) (listed) :=
    fieldRow87_of_row slot number listed
  unfold decodeExtended
  refine .ite (fun skip => .ok (.inl skip)) fun _ =>
    .ite (fun row01 => fun i h => .inr (.inl ?row01)) fun _ =>
    .ite (fun row03 => fun i h => .inr (.inl ?row03)) fun _ =>
    .ite (fun exr => .ok (.inr (.inr (matched exr rfl)))) fun _ =>
    .ite (fun rmpy => .ok (.inr (.inr (matched rmpy rfl)))) fun _ =>
    .ite (fun rdiv => .ok (.inr (.inr (matched rdiv rfl)))) fun _ =>
    .ite (fun lbyt => .ok (.inr (.inr (matched lbyt rfl)))) fun _ =>
    .ite (fun sbyt => .ok (.inr (.inr (matched sbyt rfl)))) fun _ =>
    .ite (fun movew => .ite (fun low => .ok (.inr (.inl ?movew))) fun _ => .error _) fun _ =>
    .ite (fun mix3 => .ok (.inr (.inr (matched mix3 rfl)))) fun _ =>
    .ite (fun physical => fun i h => .inr (.inr ?physical)) fun _ =>
    .ite (fun lwcs => .ite (fun low => .ok (.inr (.inl ?lwcs))) fun _ => .error _) fun _ =>
    .ite (fun ident => fun i h => .inr (.inl ?ident)) fun _ => .error _
  case row01 => exact word row01 ▸ decodeExtended01_fixedRow _ i h
  case row03 => exact word row03 ▸ decodeExtended03_fixedRow _ i h
  case ident => exact word ident ▸ decodeIdent_fixedRow _ i h
  case movew =>
    rw [← word movew, low]
    rfl
  case lwcs =>
    rw [← word lwcs, low]
    rfl
  case physical => exact fieldRow87_of_physical slot physical (decodePhysical_function w i h)

theorem fieldRow88_eq_true_iff : fieldRow88 w = true ↔
    (w &&& 0o177760 = 0o150000 ∨ w &&& 0o177760 = 0o150100 ∨ w &&& 0o177760 = 0o150200 ∨
      w &&& 0o177760 = 0o150300) ∨
    (w &&& 0o177400 = 0o151000 ∨ w &&& 0o177400 = 0o151400 ∨ w &&& 0o177400 = 0o152000 ∨
      w &&& 0o177400 = 0o153000) ∨
    w &&& 0o177607 = 0o152402 ∨ w &&& 0o177607 = 0o152600 ∨
    (w &&& 0o177600 = 0o153400 ∨ w &&& 0o177600 = 0o153600) := by
  simp only [fieldRow88, Bool.or_eq_true, List.contains_iff_mem, List.mem_cons, List.not_mem_nil,
    or_false, beq_iff_eq, or_assoc]

theorem fieldRow88_of_internal (slot : field w 11 5 = 0b11010#5) (function : field w 8 3 = 0)
    (reserved : field w 4 2 = 0) : fieldRow88 w = true := by
  have high := Laws.encM4_row (field w 6 2) (field w 0 4)
  rw [encM4_fields slot function reserved] at high
  have listed : ∀ k : BitVec 2, [0o150000, 0o150100, 0o150200, 0o150300].contains
      (0b11010#5 ++ 0#3 ++ k ++ 0#6 : Word) = true := by decide
  rw [fieldRow88, high, listed]
  rfl

theorem fieldRow88_of_function {function : BitVec 3} (slot : field w 11 5 = 0b11010#5)
    (picked : field w 8 3 = function)
    (listed : [0o151000, 0o151400, 0o152000, 0o153000].contains
      (0b11010#5 ++ function ++ 0#8 : Word) = true) : fieldRow88 w = true := by
  have high := Laws.encM8_row (field w 8 3) (lowByte w)
  rw [encM8_fields slot, picked] at high
  rw [fieldRow88, high, listed, Bool.or_true]
  rfl

theorem fieldRow88_of_level (slot : field w 11 5 = 0b11010#5) (function : field w 8 3 = 7) :
    fieldRow88 w = true := by
  have high := Laws.encML_row (field w 7 4) (field w 3 4) (field w 0 3)
  rw [encML_fields slot, levelRow_field function rfl] at high
  have listed : ∀ half : Bool, [0o153400, 0o153600].contains
      (0b11010#5 ++ (7#3 ++ BitVec.ofBool half) ++ 0#7 : Word) = true := by decide
  rw [fieldRow88, high]
  exact Bool.or_eq_true_iff.mpr (.inr (listed _))

theorem fieldRow88_of_block (slot : field w 11 5 = 0b11010#5) (function : field w 8 3 = 5) :
    Yields (fun _ => fieldRow88 w = true) (decodeBlock w) := by
  have high := Laws.encBlock_row (field w 7 4) (field w 3 4) (field w 0 3)
  rw [encML_fields slot] at high
  unfold decodeBlock
  refine .ite (fun half => .ite (fun low => .ok ?lrb) fun _ => .error _)
    fun half => .ite (fun low => .ok ?srb) fun _ => .error _
  case lrb =>
    rw [levelRow_field function half, low] at high
    exact fieldRow88_eq_true_iff.mpr (.inr (.inr (.inr (.inl high))))
  case srb =>
    rw [levelRow_field function (Bool.eq_false_of_not_eq_true half), low] at high
    exact fieldRow88_eq_true_iff.mpr (.inr (.inr (.inl high)))

theorem decodeSystem_matchesRow (slot : field w 11 5 = 0b11010#5) :
    Yields (fun _ => fixedRow w = true ∨ fieldRow88 w = true) (decodeSystem w) := by
  have matched {function : BitVec 3} (picked : field w 8 3 = function) (listed) :=
    fieldRow88_of_function slot picked listed
  unfold decodeSystem
  refine .ite (fun internal => fun i h => .inr ?internal) fun k₀ =>
    .ite (fun switch => fun i h => .inl ?switch) fun k₁ =>
    .ite (fun wait => .ok (.inr (matched wait rfl))) fun k₂ =>
    .ite (fun nlz => .ok (.inr (matched nlz rfl))) fun k₃ =>
    .ite (fun dnz => .ok (.inr (matched dnz rfl))) fun k₄ =>
    .ite (fun block => fun i h => .inr (fieldRow88_of_block slot block i h)) fun k₅ =>
    .ite (fun mon => .ok (.inr (matched mon rfl))) fun k₆ => ?level
  case internal => exact fieldRow88_of_internal slot internal (decodeInternal_encodes w i h).1
  case switch =>
    have fixed := decodeSwitch_fixedRow (lowByte w) i h
    rwa [← show field w 8 3 = 1 from switch, encM8_fields slot] at fixed
  case level =>
    have level := fieldRow88_of_level slot (bitVec_three_of_ne _ k₀ k₁ k₂ k₃ k₄ k₅ k₆)
    exact .ite (fun _ => .ok (.inr level)) fun _ => .ok (.inr level)

/-- A word that decodes is legal. -/
theorem illegalWord_of_decode (decoded : decode w = .ok i) : illegalWord w = false := by
  refine illegalWord_eq_false_iff.mpr ⟨fun unassigned => ?_, fun extended => ?_, fun system => ?_⟩
  · unfold decode at decoded
    rw [unassigned] at decoded
    cases decoded
  · exact decodeExtended_matchesRow extended i (decode_extended extended ▸ decoded)
  · exact decodeSystem_matchesRow system i (decode_system system ▸ decoded)

/-! ### A word that matches a row decodes -/

/-- The decoder answers an instruction. -/
def Answers (r : Except IllegalWord Instr) : Prop := ∃ i, r = .ok i

theorem Answers.ite {c : Prop} [Decidable c] {r r' : Except IllegalWord Instr} (yes : c → Answers r)
    (no : ¬c → Answers r') : Answers (if c then r else r') := by
  split
  · exact yes ‹c›
  · exact no ‹¬c›

theorem decode_answers_of_fixedRow (fixed : fixedRow w = true) : Answers (decode w) := by
  have listed := List.contains_iff_mem.mp fixed
  fin_cases listed <;> exact ⟨_, rfl⟩

theorem decodePhysical_answers (function : field w 0 3 ≠ 7) : Answers (decodePhysical w) := by
  unfold decodePhysical
  iterate 7 refine .ite (fun _ => ⟨_, rfl⟩) fun _ => ?_
  exact absurd (bitVec_three_of_ne _ ‹_› ‹_› ‹_› ‹_› ‹_› ‹_› ‹_›) function

theorem decode_answers_of_fieldRow87 (matched : fieldRow87 w = true) : Answers (decode w) := by
  simp only [fieldRow87, Bool.or_eq_true, Bool.and_eq_true, List.contains_iff_mem, List.mem_cons,
    List.not_mem_nil, or_false, beq_iff_eq, bne_iff_ne] at matched
  obtain (exr | rmpy | rdiv | lbyt | sbyt | mix3) | ⟨physical, function⟩ := matched
  · exact ⟨_, decode_of_extendedRow (fun w => .exr (srField w)) (field_of_and_eq exr rfl)
      (field_of_and_eq exr rfl)⟩
  · exact ⟨_, decode_of_extendedRow (fun w => .rmpy (srField w) (drField w)) (field_of_and_eq rmpy rfl)
      (field_of_and_eq rmpy rfl)⟩
  · exact ⟨_, decode_of_extendedRow (fun w => .rdiv (srField w)) (field_of_and_eq rdiv rfl)
      (field_of_and_eq rdiv rfl)⟩
  · exact ⟨_, decode_of_extendedRow (fun _ => .lbyt) (field_of_and_eq lbyt rfl) (field_of_and_eq lbyt rfl)⟩
  · exact ⟨_, decode_of_extendedRow (fun _ => .sbyt) (field_of_and_eq sbyt rfl) (field_of_and_eq sbyt rfl)⟩
  · exact ⟨_, decode_of_extendedRow (fun _ => .mix3) (field_of_and_eq mix3 rfl) (field_of_and_eq mix3 rfl)⟩
  · have slot : field w 11 5 = 0b11000#5 := field_of_and_eq physical rfl
    have number : field w 6 5 = 0b11011#5 := field_of_and_eq physical rfl
    have format : field w 6 2 = 0b11#2 := field_of_and_eq physical rfl
    have low : field w 0 3 ≠ 7 := fun seven =>
      function ((and_mask_eq_iff (lo := 0) (by decide) (by decide) (by decide)).mpr seven)
    rw [decode_extended slot]
    unfold decodeExtended
    rw [number, format]
    exact decodePhysical_answers low

theorem decodeInternal_answers (reserved : field w 4 2 = 0) : Answers (decodeInternal w) := by
  unfold decodeInternal
  rw [if_pos reserved]
  iterate 3 refine .ite (fun _ => ⟨_, rfl⟩) fun _ => ?_
  exact ⟨_, rfl⟩

/-- In the system slot only the functions 0, 1 and 5 have words of no row. -/
theorem decodeSystem_answers (internal : field w 8 3 ≠ 0) (switch : field w 8 3 ≠ 1)
    (block : field w 8 3 ≠ 5) : Answers (decodeSystem w) := by
  unfold decodeSystem
  refine .ite (fun zero => absurd zero internal) fun _ => .ite (fun one => absurd one switch) fun _ =>
    .ite (fun _ => ⟨_, rfl⟩) fun _ => .ite (fun _ => ⟨_, rfl⟩) fun _ => .ite (fun _ => ⟨_, rfl⟩) fun _ =>
    .ite (fun five => absurd five block) fun _ => .ite (fun _ => ⟨_, rfl⟩) fun _ =>
    .ite (fun _ => ⟨_, rfl⟩) fun _ => ⟨_, rfl⟩

theorem fieldBit_eq_of_field {n : Nat} {b : Bool} (bit : field w n 1 = BitVec.ofBool b) :
    fieldBit w n = b := by
  have same : (field w n 1).getLsbD 0 = fieldBit w n := getLsbD_field w n (by decide)
  rw [← same, bit]
  cases b <;> rfl

theorem decodeBlock_answers {half : Bool} (bit : field w 7 1 = BitVec.ofBool half)
    (low : field w 0 3 = if half then 0 else 2) : Answers (decodeBlock w) := by
  unfold decodeBlock
  rw [fieldBit_eq_of_field bit, low]
  cases half <;> exact ⟨_, rfl⟩

theorem decode_answers_of_fieldRow88 (matched : fieldRow88 w = true) : Answers (decode w) := by
  have internal (slot : field w 11 5 = 0b11010#5) (function : field w 8 3 = 0#3)
      (reserved : field w 4 2 = 0) : Answers (decode w) := by
    rw [decode_system slot, decodeSystem, function]
    exact decodeInternal_answers reserved
  have whole {k : BitVec 3} (slot : field w 11 5 = 0b11010#5) (function : field w 8 3 = k)
      (filled : k ≠ 0 ∧ k ≠ 1 ∧ k ≠ 5) : Answers (decode w) := by
    obtain ⟨internal, switch, block⟩ := function ▸ filled
    rw [decode_system slot]
    exact decodeSystem_answers internal switch block
  have block {half : Bool} (slot : field w 11 5 = 0b11010#5) (function : field w 8 3 = 5#3)
      (bit : field w 7 1 = BitVec.ofBool half) (low : field w 0 3 = if half then 0 else 2) :
      Answers (decode w) := by
    rw [decode_system slot, decodeSystem, function]
    exact decodeBlock_answers bit low
  obtain (m | m | m | m) | (m | m | m | m) | srb | lrb | (m | m) := fieldRow88_eq_true_iff.mp matched
  case inl.inl | inl.inr.inl | inl.inr.inr.inl | inl.inr.inr.inr =>
    exact internal (field_of_and_eq m rfl) (field_of_and_eq m rfl) (field_of_and_eq m rfl)
  case inr.inr.inl =>
    exact block (half := false) (field_of_and_eq srb rfl) (field_of_and_eq srb rfl)
      (field_of_and_eq srb rfl) (field_of_and_eq srb rfl)
  case inr.inr.inr.inl =>
    exact block (half := true) (field_of_and_eq lrb rfl) (field_of_and_eq lrb rfl)
      (field_of_and_eq lrb rfl) (field_of_and_eq lrb rfl)
  all_goals exact whole (k := field _ 8 3) (field_of_and_eq m rfl) (field_of_and_eq m rfl) (by decide)

/-- Format MR has every opcode that no other group of R86 has, but the unassigned one. -/
theorem decodeMemory_isSome (w : Word) (op : BitVec 5) : (decodeMemory w op).isSome =
    decide (op ∉ [0b10110#5, 0b11000#5, 0b11001#5, 0b11010#5, 0b11011#5, 0b11100#5, 0b11101#5,
      0b11110#5, 0b11111#5]) := by
  obtain ⟨op⟩ := op
  fin_cases op <;> rfl

/-- In the extended and the system slot a word decodes where its own decoder answers, elsewhere if its
opcode is assigned. -/
theorem decode_answers (extended : field w 11 5 = 0b11000#5 → Answers (decodeExtended w))
    (system : field w 11 5 = 0b11010#5 → Answers (decodeSystem w))
    (assigned : field w 11 5 ≠ 0b11100#5) : Answers (decode w) := by
  unfold decode
  refine .ite (fun _ => ⟨_, rfl⟩) fun jump => .ite extended fun notExtended =>
    .ite (fun _ => ⟨_, rfl⟩) fun register => .ite system fun notSystem =>
    .ite (fun _ => ⟨_, rfl⟩) fun shift => .ite (fun _ => ⟨_, rfl⟩) fun iox =>
    .ite (fun _ => ⟨_, rfl⟩) fun argument => .ite (fun _ => ⟨_, rfl⟩) fun bit => ?memory
  have found : (decodeMemory w (field w 11 5)).isSome = true := by
    rw [decodeMemory_isSome]
    simp only [List.mem_cons, List.not_mem_nil, or_false, not_or, decide_eq_true_eq]
    exact ⟨jump, notExtended, register, notSystem, shift, assigned, iox, argument, bit⟩
  obtain ⟨i, row⟩ := Option.isSome_iff_exists.mp found
  exact ⟨i, by rw [row]⟩

/-- A legal word decodes. -/
theorem decode_answers_of_legal (legal : illegalWord w = false) : Answers (decode w) := by
  obtain ⟨assigned, extended, system⟩ := illegalWord_eq_false_iff.mp legal
  refine decode_answers (fun slot => ?extended) (fun slot => ?system) assigned
  case extended =>
    rw [← decode_extended slot]
    obtain skip | fixed | matched := extended slot
    · rw [decode_extended slot, decodeExtended, if_pos skip]
      exact ⟨_, rfl⟩
    · exact decode_answers_of_fixedRow fixed
    · exact decode_answers_of_fieldRow87 matched
  case system =>
    rw [← decode_system slot]
    exact (system slot).elim decode_answers_of_fixedRow decode_answers_of_fieldRow88

end Sys2Proof

namespace Sys2Proof.Proofs

open Sys2Proof.Machine

/-- Settles O4: a word that decodes matches a row, and a word that matches a row decodes. -/
theorem illegalWordsAreThoseOfNoRow : Obligations.IllegalWordsAreThoseOfNoRow := by
  have decodes_or_illegal (w : Word) : (∃ e, decode w = .error e) ↔ Claims.illegalWord w = true := by
    refine ⟨fun ⟨e, illegal⟩ => ?none, fun none => ?illegal⟩
    case none =>
      by_contra legal
      obtain ⟨i, decoded⟩ := decode_answers_of_legal (Bool.eq_false_of_not_eq_true legal)
      exact absurd (illegal.symm.trans decoded) nofun
    case illegal =>
      cases decoded : decode w with
      | error e => exact ⟨e, rfl⟩
      | ok i => exact absurd (none.symm.trans (illegalWord_of_decode decoded)) nofun
  refine ⟨decodes_or_illegal, fun w s illegal => ?_⟩
  obtain ⟨e, undecoded⟩ := (decodes_or_illegal w).mpr illegal
  exact executeWord_of_illegal undecoded

end Sys2Proof.Proofs
end
